-- ==== Sys2Proof/Config.lean ====
section
/-! DEFINITION. The implementation parameters of 00_scope.md R5, each a configuration value; CONFIG of
10_state.md R21; and the model's free values. WIRE_LEN and PAYLOAD_LEN are fields of CONFIG; RX_MAX,
FP_FORMAT and P_WIDTH are constants that the operations take as arguments; TAG is the type Nat. -/

namespace Sys2Proof

/-- A binary floating-point format by its sizes: a sign bit, the exponent bits that are left, and the
fraction bits in the low positions (the layout of 30_encoding.md R92). -/
structure FpFormat where
  width : Nat
  fractionBits : Nat
  deriving DecidableEq, Repr

/-- IEEE 754 binary64 (R92): 64 bits, fraction in bits 51 to 0, so exponent in bits 62 to 52. -/
abbrev FpFormat.binary64 : FpFormat := ⟨64, 52⟩

/-- The exponent bias (R92: 1023 for binary64). -/
def FpFormat.bias (f : FpFormat) : Nat := 2 ^ (f.width - f.fractionBits - 2) - 1

/-- The smallest positive value of the format is `2 ^ (-minExp)` (1074 for binary64). -/
def FpFormat.minExp (f : FpFormat) : Nat := f.bias + f.fractionBits - 1

/-- The pattern of plus infinity: exponent bits all one, fraction zero. -/
def FpFormat.infinity (f : FpFormat) : Nat :=
  (2 ^ (f.width - f.fractionBits - 1) - 1) * 2 ^ f.fractionBits

/-- `CONFIG` (R21): fixed at instantiation, written by no transaction. -/
structure Config where
  /-- `CONFIG.WIRE_LEN`; R5 requires 103. -/
  wireLen : Nat
  /-- `CONFIG.PAYLOAD_LEN`, u8. -/
  payloadLen : BitVec 8
  deriving DecidableEq, Repr

/-- The values this hardware takes (R5, R21): WIRE_LEN = 103, PAYLOAD_LEN = 89. -/
def Config.default : Config := ⟨103, 89⟩

/-- `FP_FORMAT` (R5, D6): the format of the scaled outputs. Only binary64 is specified. -/
abbrev Config.fpFormat : FpFormat := .binary64

/-- `P_WIDTH` (R5, D19): the width of the corrected power, unsigned. -/
abbrev Config.pWidth : Nat := 32

/-- How far RX_MAX lies above 103: OPEN in the spec (R5, D13), so it has no value here (log entry 8). -/
opaque Config.rxExcess : Nat

/-- `RX_MAX` (R5): the largest byte count of one delivery, an open number that is at least 103. -/
def Config.rxMax : Nat := Config.rxExcess + 103

/-- The engine's free choice of a pending entry (R234: the order is not fixed), applied to the counter
`State.choice`; nothing constrains it (log entries 6 and 7). -/
opaque Config.freePick : Nat → Nat

end Sys2Proof
end

