-- ==== Sys2Proof/Word.lean ====
section
/-! DEFINITION. The words of GFP: bytes (R7), the output types (R29, R92), and the form in which an
operation is presented to the block (HOSTOP of R87, STATUS16 of R83, the FRAME103 rows of R71). -/

namespace Sys2Proof

/-- A u8 of 00_scope.md R7. -/
abbrev Byte := BitVec 8

/-- The 64-bit pattern of an IEEE 754 binary64 value (30_encoding.md R92). -/
abbrev Binary64 := BitVec 64

/-- A scaled output: a pattern of the configured format FP_FORMAT (R5, R29). -/
abbrev Measurement := BitVec Config.fpFormat.width

/-- The corrected power: an unsigned integer of P_WIDTH bits (R5, R29). -/
abbrev Power := BitVec Config.pWidth

/-- The three rows of the opcode table that stand for a whole unit (rows of format `internal` or
`DELIVERY` marked "composite"). -/
inductive Composite where
  | decode
  | convert
  | status
  deriving DecidableEq, Repr

/-- What is presented to the block for one step, before decoding. The `host` form is the spec's own
encoding (R87). The engine's operations have no code in the spec: the model names each by its unit
and its FRAME103 row of R71, or by its STATUS16 word with the power operand (R83).
DESIGN CHOICE, safe: log entry 11. -/
inductive Slot where
  /-- The host port: a 2-bit HOSTOP and the byte sequence that DELIVER carries. -/
  | host (hostop : BitVec 2) (bytes : List Byte)
  /-- The engine's own step PROCESS on the entry with this tag; it has no host code (R87). -/
  | engine (tag : Nat)
  /-- A stage of the frame decoder: 0 is ACCEPT, 1 to 34 are the rows of R71, 35 is LENCHK (the order of R120). -/
  | decoder (stage : Nat)
  /-- An operation of the unit converter, by the FRAME103 row of the field it converts (R82). -/
  | converter (row : Nat)
  /-- A word at the status interpreter: the STATUS16 code and the corrected power (R83). -/
  | status16 (code : BitVec 16) (power : Power)
  /-- A whole unit. -/
  | composite (c : Composite)
  /-- Any other word, of no format of the opcode table. -/
  | raw (nbits w : Nat)
  deriving DecidableEq, Repr

end Sys2Proof
end

