-- ==== Sys2Proof/Syntax.lean ====
section
/-! DEFINITION. The operations of GFP: one constructor per row of spec/opcode_table.json, in the
table's order; each docstring names the row and its rule. -/

namespace Sys2Proof

/-- The 63 rows of spec/opcode_table.json. Only DELIVER (its byte sequence, R231) and PROCESS (the tag
of the entry it takes, R232) have operands; every other row's operands are in the state (R22). -/
inductive Instr where
  /-- `NONE`, R87. -/
  | hostNone
  /-- `DELIVER`, R231. -/
  | deliver (bytes : List Byte)
  /-- `RESET`, R233. -/
  | reset
  /-- `RESERVED.HOSTOP3`, R236. -/
  | reservedHostop3
  /-- `PROCESS`, R232. -/
  | process (tag : Nat)
  /-- `ACCEPT`, R121. -/
  | accept
  /-- `EXTRACT.START`, R122. -/
  | extractStart
  /-- `EXTRACT.LEN`, R123. -/
  | extractLen
  /-- `EXTRACT.CTRL`, R124. -/
  | extractCtrl
  /-- `EXTRACT.ID1`, R125. -/
  | extractId1
  /-- `EXTRACT.ID2`, R126. -/
  | extractId2
  /-- `EXTRACT.CMD`, R127. -/
  | extractCmd
  /-- `EXTRACT.PTYPE`, R128. -/
  | extractPtype
  /-- `EXTRACT.SERIAL`, R129. -/
  | extractSerial
  /-- `EXTRACT.TEMP`, R130. -/
  | extractTemp
  /-- `EXTRACT.VDC1`, R131. -/
  | extractVdc1
  /-- `EXTRACT.VDC2`, R132. -/
  | extractVdc2
  /-- `SKIP.RSV0`, R133. -/
  | skipRsv0
  /-- `EXTRACT.ADC1`, R134. -/
  | extractAdc1
  /-- `EXTRACT.ADC2`, R135. -/
  | extractAdc2
  /-- `SKIP.RSV1`, R136. -/
  | skipRsv1
  /-- `EXTRACT.AAC`, R137. -/
  | extractAac
  /-- `SKIP.RSV2`, R138. -/
  | skipRsv2
  /-- `EXTRACT.VAC`, R139. -/
  | extractVac
  /-- `SKIP.RSV3`, R140. -/
  | skipRsv3
  /-- `EXTRACT.FAC`, R141. -/
  | extractFac
  /-- `EXTRACT.PNOW`, R142. -/
  | extractPnow
  /-- `SKIP.RSV4`, R143. -/
  | skipRsv4
  /-- `EXTRACT.YDAY`, R144. -/
  | extractYday
  /-- `EXTRACT.TODAY`, R145. -/
  | extractToday
  /-- `EXTRACT.TOTAL`, R146. -/
  | extractTotal
  /-- `SKIP.RSV5`, R147. -/
  | skipRsv5
  /-- `EXTRACT.STATUS`, R148. -/
  | extractStatus
  /-- `SKIP.RSV6`, R149. -/
  | skipRsv6
  /-- `EXTRACT.MONTH`, R150. -/
  | extractMonth
  /-- `SKIP.RSV7`, R151. -/
  | skipRsv7
  /-- `EXTRACT.LASTMONTH`, R152. -/
  | extractLastMonth
  /-- `SKIP.RSV8`, R153. -/
  | skipRsv8
  /-- `EXTRACT.CHECKSUM`, R154. -/
  | extractChecksum
  /-- `EXTRACT.END`, R155. -/
  | extractEnd
  /-- `LENCHK`, R156. -/
  | lenchk
  /-- `DECODE`, R157. -/
  | decode
  /-- `CONV.TEMP`, R172. -/
  | convTemp
  /-- `CONV.VDC1`, R173. -/
  | convVdc1
  /-- `CONV.VDC2`, R174. -/
  | convVdc2
  /-- `CONV.ADC1`, R175. -/
  | convAdc1
  /-- `CONV.ADC2`, R176. -/
  | convAdc2
  /-- `CONV.AAC`, R177. -/
  | convAac
  /-- `CONV.VAC`, R178. -/
  | convVac
  /-- `CONV.FAC`, R179. -/
  | convFac
  /-- `CONV.YDAY`, R180. -/
  | convYday
  /-- `CONV.TODAY`, R181. -/
  | convToday
  /-- `CONV.TOTAL`, R182. -/
  | convTotal
  /-- `CONV.PNOW`, R183. -/
  | convPnow
  /-- `CONV.MONTH`, R184. -/
  | convMonth
  /-- `CONV.LASTMONTH`, R185. -/
  | convLastMonth
  /-- `CONVERT`, R186. -/
  | convert
  /-- `STATUS.OFF`, R211. -/
  | statusOff
  /-- `STATUS.READY`, R210. -/
  | statusReady
  /-- `STATUS.GENERATING`, R210. -/
  | statusGenerating
  /-- `STATUS.NOGRID`, R210. -/
  | statusNogrid
  /-- `STATUS.UNKNOWN`, R210. -/
  | statusUnknown
  /-- `STATUS`, R212. -/
  | status
  deriving DecidableEq, Repr

end Sys2Proof
end

