-- ==== Sys2Proof/Machine/State.lean ====
section
/-! DEFINITION. The state of GFP as plain data: CONFIG, PENDING, NEXT_TAG and OUT (10_state.md R20), the
transient entry, RF and REC of one PROCESS step (R28, R29), and the model's own program and choice
counter; the reasons a step can stop; the state after reset (R31). -/

namespace Sys2Proof.Machine

/-- One pending delivery (R27): its ghost tag and the bytes the host delivered. -/
structure Delivery where
  tag : Nat
  bytes : List Byte
  deriving DecidableEq, Repr

/-- `PENDING` (R27), the only memory of GFP (R30, R50): each entry's bytes are an address space of their
own, read by offset. The finite set is held as the list of its entries with tags strictly rising
(`Memory.wf`), so equal sets are equal lists; an address that is not listed does not exist (R64).
DESIGN CHOICE, safe: log entry 4. -/
abbrev Memory := List Delivery

/-- `RF` (RawFrame, R28): the raw fields, one for each row of R71 that is not reserved. -/
structure RawFrame where
  /-- `RF.START`, u8 (R122). -/
  start : BitVec 8
  /-- `RF.LEN`, u8 (R123). -/
  len : BitVec 8
  /-- `RF.CTRL`, u16 (R124). -/
  ctrl : BitVec 16
  /-- `RF.ID1`, u32 (R125). -/
  id1 : BitVec 32
  /-- `RF.ID2`, u32 (R126). -/
  id2 : BitVec 32
  /-- `RF.CMD`, u8 (R127). -/
  cmd : BitVec 8
  /-- `RF.PTYPE`, u16 (R128). -/
  ptype : BitVec 16
  /-- `RF.SERIAL`, 16 uninterpreted bytes (R129). -/
  serial : List Byte
  /-- `RF.TEMP`, u16 (R130). -/
  temp : BitVec 16
  /-- `RF.VDC1`, u16 (R131). -/
  vdc1 : BitVec 16
  /-- `RF.VDC2`, u16 (R132). -/
  vdc2 : BitVec 16
  /-- `RF.ADC1`, u16 (R134). -/
  adc1 : BitVec 16
  /-- `RF.ADC2`, u16 (R135). -/
  adc2 : BitVec 16
  /-- `RF.AAC`, u16 (R137). -/
  aac : BitVec 16
  /-- `RF.VAC`, u16 (R139). -/
  vac : BitVec 16
  /-- `RF.FAC`, u16 (R141). -/
  fac : BitVec 16
  /-- `RF.PNOW`, u16 (R142). -/
  pnow : BitVec 16
  /-- `RF.YDAY`, u16 (R144). -/
  yday : BitVec 16
  /-- `RF.TODAY`, u16 (R145). -/
  today : BitVec 16
  /-- `RF.TOTAL`, u32 (R146). -/
  total : BitVec 32
  /-- `RF.STATUS`, u16 (R148). -/
  status : BitVec 16
  /-- `RF.MONTH`, u16 (R150). -/
  month : BitVec 16
  /-- `RF.LASTMONTH`, u16 (R152). -/
  lastMonth : BitVec 16
  /-- `RF.CHECKSUM`, u8 (R154). -/
  checksum : BitVec 8
  /-- `RF.END`, u8 (R155). -/
  endMarker : BitVec 8
  deriving DecidableEq, Repr

/-- The five labels (R84, R85). The closed type makes codes 0b101 to 0b111 impossible (R84); the codes
and strings are `Label.code` and `Label.text`. Log entry 13. -/
inductive Label where
  | ready
  | generating
  | noGrid
  | unknown
  | off
  deriving DecidableEq, Repr

/-- `REC` (InverterRecord, R29, R96): the 15 output fields, in the order of R29; the eleven scaled fields are
binary64 (FP_FORMAT) and the power u32 (P_WIDTH). -/
structure InverterRecord where
  /-- `REC.TEMP_C`, °C (R172). -/
  tempC : Measurement
  /-- `REC.VDC1_V`, V (R173). -/
  vdc1V : Measurement
  /-- `REC.VDC2_V`, V (R174). -/
  vdc2V : Measurement
  /-- `REC.ADC1_A`, A (R175). -/
  adc1A : Measurement
  /-- `REC.ADC2_A`, A (R176). -/
  adc2A : Measurement
  /-- `REC.AAC_A`, A (R177). -/
  aacA : Measurement
  /-- `REC.VAC_V`, V (R178). -/
  vacV : Measurement
  /-- `REC.FAC_HZ`, Hz (R179). -/
  facHz : Measurement
  /-- `REC.PNOW_W`, W (R183). -/
  pnowW : Power
  /-- `REC.EYDAY_KWH`, kWh (R180). -/
  eydayKwh : Measurement
  /-- `REC.ETODAY_KWH`, kWh (R181). -/
  etodayKwh : Measurement
  /-- `REC.ETOTAL_KWH`, kWh (R182). -/
  etotalKwh : Measurement
  /-- `REC.EMONTH`, kWh, raw (R184). -/
  emonth : BitVec 16
  /-- `REC.ELASTMONTH`, kWh, raw (R185). -/
  elastMonth : BitVec 16
  /-- `REC.STATUS`, label (R212). -/
  status : Label
  deriving DecidableEq, Repr

/-- The two errors and what each records (R86, R95, R251, R252). The closed type makes error code 0 and
codes above 2 impossible (R86); the codes are `ErrorInfo.code`. Log entry 13. -/
inductive ErrorInfo where
  /-- Code 1: the byte count and the bytes of the delivery (R251). -/
  | wireLengthMismatch (count : Nat) (raw : List Byte)
  /-- Code 2: the declared length found, `RF.LEN` (R252). -/
  | invalidPacketLength (declared : Byte)
  deriving DecidableEq, Repr

/-- A result event (R25, R96, R97). -/
inductive Event where
  | record (tag : Nat) (rc : InverterRecord)
  | error (tag : Nat) (info : ErrorInfo)
  deriving DecidableEq, Repr

/-- The state of GFP. `config`, `pending`, `nextTag` and `out` are the persistent state of R20; `cur`,
`rf` and `rc` exist only inside a PROCESS step (R28, R31); `program` and `choice` are the model's own. -/
structure State where
  /-- `CONFIG` (R21). -/
  config : Config
  /-- `PENDING` (R27). -/
  pending : Memory
  /-- `NEXT_TAG` (R26). -/
  nextTag : Nat
  /-- `OUT` (R25), oldest event first. -/
  out : List Event
  /-- The entry the PROCESS step in progress has taken out of PENDING (R232); none between steps. -/
  cur : Option Delivery
  /-- `RF` (R28); none when it does not exist (R31). -/
  rf : Option RawFrame
  /-- `REC` (R29); none when it does not exist (R31). -/
  rc : Option InverterRecord
  /-- The MODEL's own: the operations still to be presented, in order (the notation of R9). Log entry 5. -/
  program : List Slot
  /-- The MODEL's own: counts the free choices the idle step has taken. Log entry 7. -/
  choice : Nat
  deriving DecidableEq, Repr

/-- GFP has no fault (R250; 93_implementation_defined.md: "fault and stuck are not used"): no reason
exists, and nothing raises one. -/
inductive Fault where
  deriving DecidableEq, Repr

/-- Why the model takes no step. Every refusal is safe: no claim holds of the refused run (R236). -/
inductive Refusal where
  /-- An instruction with no meaning yet; raised by an arm of `exec` only. Safe. -/
  | notModelled (mnemonic : String)
  /-- HOSTOP 0b11 has no meaning and is refused (R236); raised by RESERVED.HOSTOP3. Safe. -/
  | reservedHostop
  /-- DELIVER of more than RX_MAX bytes is no operation of the block: its operand has at most RX_MAX bytes
  (R231), and more never reach it (D13). Raised by DELIVER. Safe (log entry 8). -/
  | overRxMax
  /-- PROCESS of a tag that is not in PENDING is not enabled (R232); raised by PROCESS. Safe. -/
  | notPending
  /-- PROCESS while another PROCESS step is in progress: steps are atomic (R230). No run reaches this. Safe. -/
  | engineBusy
  /-- A stage of PROCESS presented while no entry is being processed: it has no operands (R23, R30).
  Raised by the decoder, converter and status operations. Safe (log entry 3). -/
  | noDelivery
  /-- An EXTRACT or LENCHK before ACCEPT has passed: RF does not exist (R121). Safe (log entry 3). -/
  | noFrame
  /-- An EXTRACT on an entry that is not 103 bytes long must be refused (R64). Safe (log entry 3). -/
  | notFrameLength
  /-- A converter or status operation before LENCHK has passed: "the caller must not proceed to
  conversion" (R156, R186). Safe (log entry 3). -/
  | noRecord
  /-- `step`: the slot presented holds no code of the opcode table. Safe (log entry 11). -/
  | undecodable
  deriving DecidableEq, Repr

/-- The state after RESET and at power-on (R31, R270, R271), CONFIG at the default instantiation. The
program is empty (log entry 5) and the choice counter is 0 (DESIGN CHOICE, log entry 7). -/
def State.reset : State where
  config := Config.default
  pending := []
  nextTag := 0
  out := []
  cur := none
  rf := none
  rc := none
  program := []
  choice := 0

end Sys2Proof.Machine
end

