-- ==== Sys2Proof/Machine/Operands.lean ====
section
/-! DEFINITION. Operand forms: reading the frame's bytes (R8, R51, R54), the FRAME103 table (R71), and
the numeric primitives isqrt (R8), RNE64 (R170) and SCALE (R171). -/

namespace Sys2Proof.Machine

/-- The size of FRAME103 in bytes (R71). -/
def frameSize : Nat := 103

/-- The byte at offset `i`. Every reader first checks that the offset exists (R64), so the value off
the end is never used. -/
def byteAt (b : List Byte) (i : Nat) : Byte := b.getD i 0

/-- `MemRead(o, n)` (R8, R51): the `n` bytes from offset `o` as an unsigned integer, big-endian. -/
def memRead (b : List Byte) (o : Nat) : Nat → Nat
  | 0 => 0
  | n + 1 => memRead b o n * 256 + (byteAt b (o + n)).toNat

/-- `MemRead(o, 1)`, a u8 (R54). -/
def memRead8 (b : List Byte) (o : Nat) : BitVec 8 := BitVec.ofNat 8 (memRead b o 1)

/-- `MemRead(o, 2)`, a u16 (R54). -/
def memRead16 (b : List Byte) (o : Nat) : BitVec 16 := BitVec.ofNat 16 (memRead b o 2)

/-- `MemRead(o, 4)`, a u32 (R54). -/
def memRead32 (b : List Byte) (o : Nat) : BitVec 32 := BitVec.ofNat 32 (memRead b o 4)

/-- `Bytes(o, n)` (R8): the `n` bytes from offset `o`, uninterpreted. -/
def bytesAt (b : List Byte) (o n : Nat) : List Byte := (b.drop o).take n

/-- The frame integer `F = b[0] ++ b[1] ++ ... ++ b[102]` (R7). -/
def frameInt (b : List Byte) : BitVec 824 := BitVec.ofNat 824 (memRead b 0 103)

/-- The digits of the integer square root from bit `k - 1` down: a bit is kept when the square still
does not exceed `n`. -/
def isqrtBits (n : Nat) : Nat → Nat → Nat
  | 0, s => s
  | k + 1, s =>
    if (s + 2 ^ k) * (s + 2 ^ k) ≤ n then isqrtBits n k (s + 2 ^ k) else isqrtBits n k s

/-- `isqrt(n)` (R8): the largest natural `s` with `s*s <= n`. -/
def isqrt (n : Nat) : Nat := isqrtBits n (n.log2 / 2 + 1) 0

/-- The natural number nearest `n / d`, ties to even. -/
def roundHalfEven (n d : Nat) : Nat :=
  if 2 * (n % d) < d then n / d
  else if d < 2 * (n % d) then n / d + 1
  else n / d + n / d % 2

/-- `v`, but no more than `top`. -/
def atMost (top v : Nat) : Nat := top - (top - v)

/-- The value of a format nearest the exact rational `n / d`, ties to the even significand, as a pattern;
at binary64 this is `RNE64` (R170). The quotient is taken in units of `2^-u`, small enough that its whole
part has more bits than a significand; `k` is how many of them lie below the result's last place, which is
never below the last place of the format's smallest values; the significand is the quotient in units of
`2^(k-u)`, rounded once, and carries into the exponent when it rounds up to the next power of two. A quotient
that rounds past the largest value gives infinity. CONVERT forms none that is so large, nor any
subnormal (R93). Formats other than binary64: log entry 14. -/
def rne (f : FpFormat) (n d : Nat) : BitVec f.width :=
  if n = 0 then 0
  else
    let u := d.log2 + f.fractionBits + 1
    let k := max ((n * 2 ^ u / d).log2 - f.fractionBits) (u - f.minExp)
    BitVec.ofNat f.width (atMost f.infinity
      ((f.minExp + k - u) * 2 ^ f.fractionBits + roundHalfEven (n * 2 ^ u) (d * 2 ^ k)))

/-- `SCALE(raw, d) = RNE64(raw / d)` (R171), in the configured format FP_FORMAT. -/
def scale (raw d : Nat) : Measurement := rne Config.fpFormat raw d

/-- `floor(raw × √3) = isqrt(3 × raw²)` (R183) as an unsigned integer of `w` bits. -/
def powerFloor (w : Nat) (raw : BitVec 16) : BitVec w :=
  BitVec.ofNat w (isqrt (3 * raw.toNat * raw.toNat))

/-- The power correction of R183, at the configured width P_WIDTH. -/
def correctPower (raw : BitVec 16) : Power := powerFloor Config.pWidth raw

/-- The rational number `units × 2^-1074` that a binary64 pattern with sign 0 and a biased exponent
below 2047 stands for (R92), as its count of units of `2^-1074`. -/
def binary64Units (x : Binary64) : Nat :=
  let e := (x.toNat / 2 ^ 52) % 2 ^ 11
  let f := x.toNat % 2 ^ 52
  if e = 0 then f else (2 ^ 52 + f) * 2 ^ (e - 1)

end Sys2Proof.Machine
end

