-- ==== Sys2Proof/Machine/Flags.lean ====
section
/-! DEFINITION. Conditions. GFP has no flags or condition codes (R24); what stands here are the tests
that choose between its outcomes: the two length checks (R121, R156) and the hits of the STATUS16 rows
(R83, R210, R211), with the label and error codes (R84 to R86). -/

namespace Sys2Proof.Machine

/-- ACCEPT passes (R121): the byte count is WIRE_LEN. -/
def wireLenOk (c : Config) (bytes : List Byte) : Bool := bytes.length == c.wireLen

/-- LENCHK passes (R156): the declared length is PAYLOAD_LEN. -/
def payloadLenOk (c : Config) (declared : Byte) : Bool := declared == c.payloadLen

/-- The Off override hits (R211): code 0x0003 and corrected power exactly zero. -/
def hitsOff (code : BitVec 16) (power : Power) : Bool := code == 0x0003 && power == 0

/-- Row READY of R83. -/
def hitsReady (code : BitVec 16) : Bool := code == 0x0000

/-- Row GENERATING of R83, whose condition is a non-zero corrected power. -/
def hitsGenerating (code : BitVec 16) (power : Power) : Bool := code == 0x0003 && power != 0

/-- Row NOGRID of R83. -/
def hitsNogrid (code : BitVec 16) : Bool := code == 0x1015

/-- Row UNKNOWN of R83: no other row has this code. -/
def hitsUnknown (code : BitVec 16) : Bool :=
  code != 0x0000 && code != 0x0003 && code != 0x1015

/-- `STATMAP` (R210), the closed status lookup. -/
def statmap (code : BitVec 16) : Label :=
  if code = 0x0000 then .ready
  else if code = 0x0003 then .generating
  else if code = 0x1015 then .noGrid
  else .unknown

/-- The label STATUS writes (R212): the override takes precedence over the lookup. -/
def statusLabel (code : BitVec 16) (power : Power) : Label :=
  if hitsOff code power then .off else statmap code

/-- The LABEL3 code (R84). -/
def Label.code : Label → BitVec 3
  | .ready => 0b000
  | .generating => 0b001
  | .noGrid => 0b010
  | .unknown => 0b011
  | .off => 0b100

/-- The label string (R85). -/
def Label.text : Label → String
  | .ready => "Ready"
  | .generating => "Generating"
  | .noGrid => "No grid"
  | .unknown => "Unknown"
  | .off => "Off"

/-- The error code (R86). -/
def ErrorInfo.code : ErrorInfo → Nat
  | .wireLengthMismatch _ _ => 1
  | .invalidPacketLength _ => 2

/-- The ghost tag an event carries (R25). -/
def Event.tag : Event → Nat
  | .record t _ => t
  | .error t _ => t

end Sys2Proof.Machine
end

