-- ==== Sys2Proof/Machine/Ops.lean ====
section
/-! DEFINITION. The shared operations: PENDING (R27), taking an entry (R232), raising an error (R8,
R250, R256: the one description of how an error is taken), emitting a record, access to the transient
records RF and REC, and running a list of stages (R23, R232). -/

namespace Sys2Proof.Machine

/-- The outcome of an operation. -/
abbrev Result := Host.Outcome State Fault Refusal

/-! ### PENDING -/

/-- The canonical form of PENDING: tags strictly rising, so unique (R27). -/
abbrev Memory.wf (m : Memory) : Prop := m.Pairwise fun a b => a.tag < b.tag

/-- Every entry has at most RX_MAX bytes (R27). -/
abbrev Memory.bounded (m : Memory) : Prop := ∀ d ∈ m, d.bytes.length ≤ Config.rxMax

/-- The bytes of the entry with this tag, if there is one. -/
def Memory.bytes? : Memory → Nat → Option (List Byte)
  | [], _ => none
  | d :: m, t => if d.tag = t then some d.bytes else Memory.bytes? m t

/-- `PENDING ∪ {(t, bytes)}` (R231). The new tag is NEXT_TAG, above every tag in the set. -/
def Memory.insert (m : Memory) (d : Delivery) : Memory := m ++ [d]

/-- `PENDING \ {(t, bytes)}` (R232), by the entry's unique tag (R27). -/
def Memory.remove (m : Memory) (t : Nat) : Memory := m.filter fun d => d.tag != t

/-! ### The transient records -/

/-- RF as ACCEPT creates it, before any EXTRACT has written it. Every field is written before it is
read (R120). DESIGN CHOICE, unsafe: log entry 1. -/
def RawFrame.blank : RawFrame where
  start := 0
  len := 0
  ctrl := 0
  id1 := 0
  id2 := 0
  cmd := 0
  ptype := 0
  serial := List.replicate 16 0
  temp := 0
  vdc1 := 0
  vdc2 := 0
  adc1 := 0
  adc2 := 0
  aac := 0
  vac := 0
  fac := 0
  pnow := 0
  yday := 0
  today := 0
  total := 0
  status := 0
  month := 0
  lastMonth := 0
  checksum := 0
  endMarker := 0

/-- REC as LENCHK creates it, before CONVERT and STATUS have written it. Every field is written before
the record is emitted (R186, R212). DESIGN CHOICE, unsafe: log entry 1. -/
def InverterRecord.blank : InverterRecord where
  tempC := 0
  vdc1V := 0
  vdc2V := 0
  adc1A := 0
  adc2A := 0
  aacA := 0
  vacV := 0
  facHz := 0
  pnowW := 0
  eydayKwh := 0
  etodayKwh := 0
  etotalKwh := 0
  emonth := 0
  elastMonth := 0
  status := .ready

/-- No entry, RF or REC: the state between two steps (R31). -/
def State.discard (s : State) : State := { s with cur := none, rf := none, rc := none }

/-- The first line of PROCESS (R232): the entry leaves PENDING and becomes the one being processed. -/
def State.take (s : State) (t : Nat) (bytes : List Byte) : State :=
  { s with pending := Memory.remove s.pending t, cur := some ⟨t, bytes⟩, rf := none, rc := none }

/-- `emit` (R8): append one event to OUT. -/
def State.emit (s : State) (e : Event) : State := { s with out := s.out ++ [e] }

/-- `raise E(info)` (R8, R250, R256), the whole of taking an error: the Error event of the delivery is
appended to OUT and the entry, RF and REC are discarded, which abandons the remaining stages. No state
is saved, no mode changes and there is no handler and no return (R257). -/
def State.raise (s : State) (d : Delivery) (info : ErrorInfo) : State :=
  (s.emit (.error d.tag info)).discard

/-- The last line of PROCESS (R232): the Record event of the delivery, and the end of the step. -/
def emitRecord (s : State) : Result :=
  match s.cur, s.rc with
  | some d, some c => .next (s.emit (.record d.tag c)).discard
  | some _, none => .refused .noRecord
  | none, _ => .refused .noDelivery

/-- An EXTRACT: write RF from the bytes of the entry being processed (R120). Refused unless the entry
has been accepted and is 103 bytes long (R64; log entry 3). -/
def onFrame (s : State) (f : List Byte → RawFrame → RawFrame) : Result :=
  match s.cur, s.rf with
  | some d, some r =>
    if d.bytes.length = frameSize then .next { s with rf := some (f d.bytes r) }
    else .refused .notFrameLength
  | some _, none => .refused .noFrame
  | none, _ => .refused .noDelivery

/-- An operation of the converter or of the status interpreter: write REC from RF (R186, R212). Refused
unless LENCHK has passed (R156; log entry 3). -/
def onRecord (s : State) (f : RawFrame → InverterRecord → InverterRecord) : Result :=
  match s.cur, s.rf, s.rc with
  | some _, some r, some c => .next { s with rc := some (f r c) }
  | some _, some _, none => .refused .noRecord
  | some _, none, _ => .refused .noFrame
  | none, _, _ => .refused .noDelivery

/-- Run stages in order. A stage that raised an error has discarded the entry, and then the remaining
stages are abandoned (R8, R255). -/
def runStages : List (State → Result) → State → Result
  | [], s => .next s
  | f :: fs, s =>
    match f s with
    | .next s' => if s'.cur.isSome then runStages fs s' else .next s'
    | o => o

end Sys2Proof.Machine
end

