-- ==== Sys2Proof/WellFormed.lean ====
section
/-! DEFINITION. The checks on an operation's operands: the only one the spec gives is the length bound
of DELIVER (44_transactions.md R231: `0 <= len(bytes) <= RX_MAX`). -/

namespace Sys2Proof

/-- The operands are ones the spec admits. PROCESS takes any natural number as its tag (R26); whether
that tag is pending is a question about the state (R232), not about the operation. -/
def Instr.wf : Instr → Bool
  | .deliver bytes => decide (bytes.length ≤ Config.rxMax)
  | _ => true

end Sys2Proof
end

