-- ==== Sys2Proof/Decode.lean ====
section
/-! DEFINITION. Decoding: from what is presented to the block to an operation (HOSTOP of R87, the rows of
FRAME103 in R71, STATUS16 of R83), total, refusing by name; the encoder after it; the opcode table's
words; and the encoder of a whole FRAME103 frame (R71). -/

namespace Sys2Proof

open Sys2Proof.Machine

/-- Why a slot is no operation of the opcode table. -/
inductive DecodeError where
  /-- No stage of the decoder has this number (R71, R120). -/
  | noDecoderStage (stage : Nat)
  /-- The field of this FRAME103 row is not converted (R82). -/
  | noConverterRow (row : Nat)
  /-- A word of no format of the opcode table. -/
  | noFormat (nbits w : Nat)
  deriving DecidableEq, Repr

/-- A row of the FRAME103 table (R71): its number, the byte offset and width, the high and low bit of
its range `F[hi:lo]`, and its decoder operation. -/
structure FrameRow where
  num : Nat
  offset : Nat
  width : Nat
  hi : Nat
  lo : Nat
  op : Instr
  deriving DecidableEq, Repr

/-- The FRAME103 table (R71), its first 17 rows. -/
def frameRowsLow : List FrameRow :=
  [ ⟨1, 0, 1, 823, 816, .extractStart⟩
  , ⟨2, 1, 1, 815, 808, .extractLen⟩
  , ⟨3, 2, 2, 807, 792, .extractCtrl⟩
  , ⟨4, 4, 4, 791, 760, .extractId1⟩
  , ⟨5, 8, 4, 759, 728, .extractId2⟩
  , ⟨6, 12, 1, 727, 720, .extractCmd⟩
  , ⟨7, 13, 2, 719, 704, .extractPtype⟩
  , ⟨8, 15, 16, 703, 576, .extractSerial⟩
  , ⟨9, 31, 2, 575, 560, .extractTemp⟩
  , ⟨10, 33, 2, 559, 544, .extractVdc1⟩
  , ⟨11, 35, 2, 543, 528, .extractVdc2⟩
  , ⟨12, 37, 2, 527, 512, .skipRsv0⟩
  , ⟨13, 39, 2, 511, 496, .extractAdc1⟩
  , ⟨14, 41, 2, 495, 480, .extractAdc2⟩
  , ⟨15, 43, 2, 479, 464, .skipRsv1⟩
  , ⟨16, 45, 2, 463, 448, .extractAac⟩
  , ⟨17, 47, 4, 447, 416, .skipRsv2⟩ ]

/-- The FRAME103 table (R71), rows 18 to 34. -/
def frameRowsHigh : List FrameRow :=
  [ ⟨18, 51, 2, 415, 400, .extractVac⟩
  , ⟨19, 53, 4, 399, 368, .skipRsv3⟩
  , ⟨20, 57, 2, 367, 352, .extractFac⟩
  , ⟨21, 59, 2, 351, 336, .extractPnow⟩
  , ⟨22, 61, 6, 335, 288, .skipRsv4⟩
  , ⟨23, 67, 2, 287, 272, .extractYday⟩
  , ⟨24, 69, 2, 271, 256, .extractToday⟩
  , ⟨25, 71, 4, 255, 224, .extractTotal⟩
  , ⟨26, 75, 4, 223, 192, .skipRsv5⟩
  , ⟨27, 79, 2, 191, 176, .extractStatus⟩
  , ⟨28, 81, 6, 175, 128, .skipRsv6⟩
  , ⟨29, 87, 2, 127, 112, .extractMonth⟩
  , ⟨30, 89, 2, 111, 96, .skipRsv7⟩
  , ⟨31, 91, 2, 95, 80, .extractLastMonth⟩
  , ⟨32, 93, 8, 79, 16, .skipRsv8⟩
  , ⟨33, 101, 1, 15, 8, .extractChecksum⟩
  , ⟨34, 102, 1, 7, 0, .extractEnd⟩ ]

/-- The FRAME103 table (R71). -/
def frameRows : List FrameRow := frameRowsLow ++ frameRowsHigh

/-- HOSTOP (R87). -/
def decodeHostop (hostop : BitVec 2) (bytes : List Byte) : Instr :=
  if hostop = 0b00 then .hostNone
  else if hostop = 0b01 then .deliver bytes
  else if hostop = 0b10 then .reset
  else .reservedHostop3

/-- A stage of the decoder, in the order of R120: ACCEPT, the rows of R71 by their number, LENCHK. -/
def decodeStage (stage : Nat) : Except DecodeError Instr :=
  if stage = 0 then .ok .accept
  else if stage = 35 then .ok .lenchk
  else
    match frameRows.find? fun r => r.num == stage with
    | some r => .ok r.op
    | none => .error (.noDecoderStage stage)

/-- An operation of the converter, by the number in R71 of the raw field that R82 says it converts. -/
def decodeConverter (row : Nat) : Except DecodeError Instr :=
  match row with
  | 9 => .ok .convTemp
  | 10 => .ok .convVdc1
  | 11 => .ok .convVdc2
  | 13 => .ok .convAdc1
  | 14 => .ok .convAdc2
  | 16 => .ok .convAac
  | 18 => .ok .convVac
  | 20 => .ok .convFac
  | 21 => .ok .convPnow
  | 23 => .ok .convYday
  | 24 => .ok .convToday
  | 25 => .ok .convTotal
  | 29 => .ok .convMonth
  | 31 => .ok .convLastMonth
  | row => .error (.noConverterRow row)

/-- STATUS16 (R83): the match and mask pairs in their order, first hit wins. -/
def decodeStatus16 (code : BitVec 16) (power : Power) : Instr :=
  if code &&& 0xFFFF = 0x0003 ∧ power = 0 then .statusOff
  else if code &&& 0xFFFF = 0x0000 then .statusReady
  else if code &&& 0xFFFF = 0x0003 then .statusGenerating
  else if code &&& 0xFFFF = 0x1015 then .statusNogrid
  else .statusUnknown

/-- The decoder. -/
def decode : Slot → Except DecodeError Instr
  | .host hostop bytes => .ok (decodeHostop hostop bytes)
  | .engine tag => .ok (.process tag)
  | .decoder stage => decodeStage stage
  | .converter row => decodeConverter row
  | .status16 code power => .ok (decodeStatus16 code power)
  | .composite .decode => .ok .decode
  | .composite .convert => .ok .convert
  | .composite .status => .ok .status
  | .raw nbits w => .error (.noFormat nbits w)

/-- The encoder: what presents an operation to the block. STATUS.UNKNOWN stands for 65533 codes (R83);
one of them is written. -/
def encode : Instr → Slot
  | .hostNone => .host 0b00 []
  | .deliver bytes => .host 0b01 bytes
  | .reset => .host 0b10 []
  | .reservedHostop3 => .host 0b11 []
  | .process tag => .engine tag
  | .accept => .decoder 0
  | .extractStart => .decoder 1
  | .extractLen => .decoder 2
  | .extractCtrl => .decoder 3
  | .extractId1 => .decoder 4
  | .extractId2 => .decoder 5
  | .extractCmd => .decoder 6
  | .extractPtype => .decoder 7
  | .extractSerial => .decoder 8
  | .extractTemp => .decoder 9
  | .extractVdc1 => .decoder 10
  | .extractVdc2 => .decoder 11
  | .skipRsv0 => .decoder 12
  | .extractAdc1 => .decoder 13
  | .extractAdc2 => .decoder 14
  | .skipRsv1 => .decoder 15
  | .extractAac => .decoder 16
  | .skipRsv2 => .decoder 17
  | .extractVac => .decoder 18
  | .skipRsv3 => .decoder 19
  | .extractFac => .decoder 20
  | .extractPnow => .decoder 21
  | .skipRsv4 => .decoder 22
  | .extractYday => .decoder 23
  | .extractToday => .decoder 24
  | .extractTotal => .decoder 25
  | .skipRsv5 => .decoder 26
  | .extractStatus => .decoder 27
  | .skipRsv6 => .decoder 28
  | .extractMonth => .decoder 29
  | .skipRsv7 => .decoder 30
  | .extractLastMonth => .decoder 31
  | .skipRsv8 => .decoder 32
  | .extractChecksum => .decoder 33
  | .extractEnd => .decoder 34
  | .lenchk => .decoder 35
  | .decode => .composite .decode
  | .convTemp => .converter 9
  | .convVdc1 => .converter 10
  | .convVdc2 => .converter 11
  | .convAdc1 => .converter 13
  | .convAdc2 => .converter 14
  | .convAac => .converter 16
  | .convVac => .converter 18
  | .convFac => .converter 20
  | .convYday => .converter 23
  | .convToday => .converter 24
  | .convTotal => .converter 25
  | .convPnow => .converter 21
  | .convMonth => .converter 29
  | .convLastMonth => .converter 31
  | .convert => .composite .convert
  | .statusOff => .status16 0x0003 0
  | .statusReady => .status16 0x0000 0
  | .statusGenerating => .status16 0x0003 1
  | .statusNogrid => .status16 0x1015 0
  | .statusUnknown => .status16 0xFFFF 0
  | .status => .composite .status

/-- A word of the opcode table, numbered as the table numbers it, as it is presented to the block: one
byte is a HOSTOP (codes 0 to 3, R87) or the LEN byte that LENCHK matches (0x59, R156); two bytes are a
STATUS16 code, whose power operand, which the table gives no bits, is zero (R83). Any other word has no
format. DESIGN CHOICE, safe: log entry 12. -/
def slotOfWord (nbits w : Nat) : Slot :=
  if nbits = 8 ∧ w < 4 then .host (BitVec.ofNat 2 w) []
  else if nbits = 8 ∧ w = 0x59 then .decoder 35
  else if nbits = 16 ∧ w < 65536 then .status16 (BitVec.ofNat 16 w) 0
  else .raw nbits w

/-- The operation the decoder reads from a word of the opcode table (log entry 12). -/
def decodeTableWord (nbits w : Nat) : Option Instr :=
  match decode (slotOfWord nbits w) with
  | .ok i => some i
  | .error _ => none

/-! ### FRAME103 -/

/-- The contents of the nine reserved regions of a frame (R78), in the order of R71. -/
structure Reserved where
  rsv0 : List Byte
  rsv1 : List Byte
  rsv2 : List Byte
  rsv3 : List Byte
  rsv4 : List Byte
  rsv5 : List Byte
  rsv6 : List Byte
  rsv7 : List Byte
  rsv8 : List Byte
  deriving DecidableEq, Repr

/-- Each region has the length R78 gives it. -/
abbrev Reserved.wf (v : Reserved) : Prop :=
  v.rsv0.length = 2 ∧ v.rsv1.length = 2 ∧ v.rsv2.length = 4 ∧ v.rsv3.length = 4 ∧ v.rsv4.length = 6 ∧
  v.rsv5.length = 4 ∧ v.rsv6.length = 6 ∧ v.rsv7.length = 2 ∧ v.rsv8.length = 8

/-- SERIAL is 16 bytes (R77). -/
abbrev Machine.RawFrame.wf (r : RawFrame) : Prop := r.serial.length = 16

/-- A u8 field on the wire. -/
def put8 (v : BitVec 8) : List Byte := [v]

/-- A u16 field on the wire, most significant byte first (R51). -/
def put16 (v : BitVec 16) : List Byte := [v.extractLsb' 8 8, v.extractLsb' 0 8]

/-- A u32 field on the wire, most significant byte first (R51). -/
def put32 (v : BitVec 32) : List Byte :=
  [v.extractLsb' 24 8, v.extractLsb' 16 8, v.extractLsb' 8 8, v.extractLsb' 0 8]

/-- The bytes of a FRAME103 frame with these fields and reserved contents, in wire order (R71). -/
def encodeFrame (r : RawFrame) (v : Reserved) : List Byte :=
  put8 r.start ++ put8 r.len ++ put16 r.ctrl ++ put32 r.id1 ++ put32 r.id2 ++ put8 r.cmd ++
  put16 r.ptype ++ r.serial ++ put16 r.temp ++ put16 r.vdc1 ++ put16 r.vdc2 ++ v.rsv0 ++
  put16 r.adc1 ++ put16 r.adc2 ++ v.rsv1 ++ put16 r.aac ++ v.rsv2 ++ put16 r.vac ++ v.rsv3 ++
  put16 r.fac ++ put16 r.pnow ++ v.rsv4 ++ put16 r.yday ++ put16 r.today ++ put32 r.total ++
  v.rsv5 ++ put16 r.status ++ v.rsv6 ++ put16 r.month ++ v.rsv7 ++ put16 r.lastMonth ++
  v.rsv8 ++ put8 r.checksum ++ put8 r.endMarker

/-- The reserved contents of a frame (R78), by the offsets of R71. -/
def reservedOf (b : List Byte) : Reserved where
  rsv0 := bytesAt b 37 2
  rsv1 := bytesAt b 43 2
  rsv2 := bytesAt b 47 4
  rsv3 := bytesAt b 53 4
  rsv4 := bytesAt b 61 6
  rsv5 := bytesAt b 75 4
  rsv6 := bytesAt b 81 6
  rsv7 := bytesAt b 89 2
  rsv8 := bytesAt b 93 8

end Sys2Proof
end

