-- ==== Sys2Proof/Machine/Status.lean ====
section
/-! DEFINITION. The status-code interpreter (43_status_interpreter.md): the rows of STATUS16 (R83) and
STATUS (R212). A row that hits gives REC.STATUS its label, and one that does not hit has no effect
(R211: "produces a LABEL3 code or nothing"). DEDUCED: log entry 10. -/

namespace Sys2Proof.Machine

/-- STATUS.OFF (R211): the override, on the raw code and the corrected power. -/
def execStatusOff (s : State) : Result :=
  onRecord s fun r c => if hitsOff r.status c.pnowW then { c with status := .off } else c

/-- STATUS.READY (R83, R210). -/
def execStatusReady (s : State) : Result :=
  onRecord s fun r c => if hitsReady r.status then { c with status := .ready } else c

/-- STATUS.GENERATING (R83, R210): only where the corrected power is not zero. -/
def execStatusGenerating (s : State) : Result :=
  onRecord s fun r c => if hitsGenerating r.status c.pnowW then { c with status := .generating } else c

/-- STATUS.NOGRID (R83, R210). -/
def execStatusNogrid (s : State) : Result :=
  onRecord s fun r c => if hitsNogrid r.status then { c with status := .noGrid } else c

/-- STATUS.UNKNOWN (R83, R210): every code that no other row has. -/
def execStatusUnknown (s : State) : Result :=
  onRecord s fun r c => if hitsUnknown r.status then { c with status := .unknown } else c

/-- STATUS (R212): the override first, else the lookup; reads the corrected power. -/
def execStatus (s : State) : Result :=
  onRecord s fun r c => { c with status := statusLabel r.status c.pnowW }

end Sys2Proof.Machine
end

