-- ==== Sys2Proof/Machine/Converter.lean ====
section
/-! DEFINITION. The unit converter (42_unit_converter.md): the eleven scaled fields (R172 to R182), the
power correction (R183), the two unscaled fields (R184, R185) and CONVERT (R186). -/

namespace Sys2Proof.Machine

/-- CONV.TEMP (R172): raw / 10, rounded once. -/
def execConvTemp (s : State) : Result :=
  onRecord s fun r c => { c with tempC := scale r.temp.toNat 10 }

/-- CONV.VDC1 (R173): raw / 10, rounded once. -/
def execConvVdc1 (s : State) : Result :=
  onRecord s fun r c => { c with vdc1V := scale r.vdc1.toNat 10 }

/-- CONV.VDC2 (R174): raw / 10, rounded once. -/
def execConvVdc2 (s : State) : Result :=
  onRecord s fun r c => { c with vdc2V := scale r.vdc2.toNat 10 }

/-- CONV.ADC1 (R175): raw / 10, rounded once. -/
def execConvAdc1 (s : State) : Result :=
  onRecord s fun r c => { c with adc1A := scale r.adc1.toNat 10 }

/-- CONV.ADC2 (R176): raw / 10, rounded once. -/
def execConvAdc2 (s : State) : Result :=
  onRecord s fun r c => { c with adc2A := scale r.adc2.toNat 10 }

/-- CONV.AAC (R177): raw / 10, rounded once. -/
def execConvAac (s : State) : Result :=
  onRecord s fun r c => { c with aacA := scale r.aac.toNat 10 }

/-- CONV.VAC (R178): raw / 10, rounded once. -/
def execConvVac (s : State) : Result :=
  onRecord s fun r c => { c with vacV := scale r.vac.toNat 10 }

/-- CONV.FAC (R179): raw / 100, rounded once. -/
def execConvFac (s : State) : Result :=
  onRecord s fun r c => { c with facHz := scale r.fac.toNat 100 }

/-- CONV.YDAY (R180): raw / 100, rounded once. -/
def execConvYday (s : State) : Result :=
  onRecord s fun r c => { c with eydayKwh := scale r.yday.toNat 100 }

/-- CONV.TODAY (R181): raw / 100, rounded once. -/
def execConvToday (s : State) : Result :=
  onRecord s fun r c => { c with etodayKwh := scale r.today.toNat 100 }

/-- CONV.TOTAL (R182): raw / 10, rounded once. -/
def execConvTotal (s : State) : Result :=
  onRecord s fun r c => { c with etotalKwh := scale r.total.toNat 10 }

/-- CONV.PNOW (R183): raw × √3, truncated. -/
def execConvPnow (s : State) : Result :=
  onRecord s fun r c => { c with pnowW := correctPower r.pnow }

/-- CONV.MONTH (R184): unscaled. -/
def execConvMonth (s : State) : Result :=
  onRecord s fun r c => { c with emonth := r.month }

/-- CONV.LASTMONTH (R185): unscaled. -/
def execConvLastMonth (s : State) : Result :=
  onRecord s fun r c => { c with elastMonth := r.lastMonth }

/-- The fourteen CONV operations in the order of R186. -/
def convStages : List (State → Result) :=
  [ execConvTemp, execConvVdc1, execConvVdc2, execConvAdc1, execConvAdc2, execConvAac,
    execConvVac, execConvFac, execConvYday, execConvToday, execConvTotal, execConvPnow,
    execConvMonth, execConvLastMonth ]

/-- CONVERT (R186): the fourteen CONV operations, then STATUS. DEDUCED: log entry 9. -/
def execConvert (s : State) : Result := runStages (convStages ++ [execStatus]) s

end Sys2Proof.Machine
end

