-- ==== Sys2Proof/Machine/Decoder.lean ====
section
/-! DEFINITION. The frame decoder (41_frame_decoder.md): ACCEPT, one EXTRACT or SKIP for each row of
FRAME103 (R71), LENCHK and DECODE. -/

namespace Sys2Proof.Machine

/-- ACCEPT (R121): a byte count other than WIRE_LEN raises WireLengthMismatch; otherwise RF comes into
existence (log entry 2). -/
def execAccept (s : State) : Result :=
  match s.cur with
  | none => .refused .noDelivery
  | some d =>
    if wireLenOk s.config d.bytes then .next { s with rf := some RawFrame.blank, rc := none }
    else .next (s.raise d (.wireLengthMismatch d.bytes.length d.bytes))

/-- EXTRACT.START (R122): offset 0. -/
def execExtractStart (s : State) : Result :=
  onFrame s fun b r => { r with start := memRead8 b 0 }

/-- EXTRACT.LEN (R123): offset 1. -/
def execExtractLen (s : State) : Result :=
  onFrame s fun b r => { r with len := memRead8 b 1 }

/-- EXTRACT.CTRL (R124): offsets 2-3. -/
def execExtractCtrl (s : State) : Result :=
  onFrame s fun b r => { r with ctrl := memRead16 b 2 }

/-- EXTRACT.ID1 (R125): offsets 4-7. -/
def execExtractId1 (s : State) : Result :=
  onFrame s fun b r => { r with id1 := memRead32 b 4 }

/-- EXTRACT.ID2 (R126): offsets 8-11. -/
def execExtractId2 (s : State) : Result :=
  onFrame s fun b r => { r with id2 := memRead32 b 8 }

/-- EXTRACT.CMD (R127): offset 12. -/
def execExtractCmd (s : State) : Result :=
  onFrame s fun b r => { r with cmd := memRead8 b 12 }

/-- EXTRACT.PTYPE (R128): offsets 13-14. -/
def execExtractPtype (s : State) : Result :=
  onFrame s fun b r => { r with ptype := memRead16 b 13 }

/-- EXTRACT.SERIAL (R129): offsets 15-30. -/
def execExtractSerial (s : State) : Result :=
  onFrame s fun b r => { r with serial := bytesAt b 15 16 }

/-- EXTRACT.TEMP (R130): offsets 31-32. -/
def execExtractTemp (s : State) : Result :=
  onFrame s fun b r => { r with temp := memRead16 b 31 }

/-- EXTRACT.VDC1 (R131): offsets 33-34. -/
def execExtractVdc1 (s : State) : Result :=
  onFrame s fun b r => { r with vdc1 := memRead16 b 33 }

/-- EXTRACT.VDC2 (R132): offsets 35-36. -/
def execExtractVdc2 (s : State) : Result :=
  onFrame s fun b r => { r with vdc2 := memRead16 b 35 }

/-- SKIP.RSV0 (R133): offsets 37-38 are neither read nor written. -/
def execSkipRsv0 (s : State) : Result := .next s

/-- EXTRACT.ADC1 (R134): offsets 39-40. -/
def execExtractAdc1 (s : State) : Result :=
  onFrame s fun b r => { r with adc1 := memRead16 b 39 }

/-- EXTRACT.ADC2 (R135): offsets 41-42. -/
def execExtractAdc2 (s : State) : Result :=
  onFrame s fun b r => { r with adc2 := memRead16 b 41 }

/-- SKIP.RSV1 (R136): offsets 43-44 are neither read nor written. -/
def execSkipRsv1 (s : State) : Result := .next s

/-- EXTRACT.AAC (R137): offsets 45-46. -/
def execExtractAac (s : State) : Result :=
  onFrame s fun b r => { r with aac := memRead16 b 45 }

/-- SKIP.RSV2 (R138): offsets 47-50 are neither read nor written. -/
def execSkipRsv2 (s : State) : Result := .next s

/-- EXTRACT.VAC (R139): offsets 51-52. -/
def execExtractVac (s : State) : Result :=
  onFrame s fun b r => { r with vac := memRead16 b 51 }

/-- SKIP.RSV3 (R140): offsets 53-56 are neither read nor written. -/
def execSkipRsv3 (s : State) : Result := .next s

/-- EXTRACT.FAC (R141): offsets 57-58. -/
def execExtractFac (s : State) : Result :=
  onFrame s fun b r => { r with fac := memRead16 b 57 }

/-- EXTRACT.PNOW (R142): offsets 59-60. -/
def execExtractPnow (s : State) : Result :=
  onFrame s fun b r => { r with pnow := memRead16 b 59 }

/-- SKIP.RSV4 (R143): offsets 61-66 are neither read nor written. -/
def execSkipRsv4 (s : State) : Result := .next s

/-- EXTRACT.YDAY (R144): offsets 67-68. -/
def execExtractYday (s : State) : Result :=
  onFrame s fun b r => { r with yday := memRead16 b 67 }

/-- EXTRACT.TODAY (R145): offsets 69-70. -/
def execExtractToday (s : State) : Result :=
  onFrame s fun b r => { r with today := memRead16 b 69 }

/-- EXTRACT.TOTAL (R146): offsets 71-74. -/
def execExtractTotal (s : State) : Result :=
  onFrame s fun b r => { r with total := memRead32 b 71 }

/-- SKIP.RSV5 (R147): offsets 75-78 are neither read nor written. -/
def execSkipRsv5 (s : State) : Result := .next s

/-- EXTRACT.STATUS (R148): offsets 79-80. -/
def execExtractStatus (s : State) : Result :=
  onFrame s fun b r => { r with status := memRead16 b 79 }

/-- SKIP.RSV6 (R149): offsets 81-86 are neither read nor written. -/
def execSkipRsv6 (s : State) : Result := .next s

/-- EXTRACT.MONTH (R150): offsets 87-88. -/
def execExtractMonth (s : State) : Result :=
  onFrame s fun b r => { r with month := memRead16 b 87 }

/-- SKIP.RSV7 (R151): offsets 89-90 are neither read nor written. -/
def execSkipRsv7 (s : State) : Result := .next s

/-- EXTRACT.LASTMONTH (R152): offsets 91-92. -/
def execExtractLastMonth (s : State) : Result :=
  onFrame s fun b r => { r with lastMonth := memRead16 b 91 }

/-- SKIP.RSV8 (R153): offsets 93-100 are neither read nor written. -/
def execSkipRsv8 (s : State) : Result := .next s

/-- EXTRACT.CHECKSUM (R154): offset 101. -/
def execExtractChecksum (s : State) : Result :=
  onFrame s fun b r => { r with checksum := memRead8 b 101 }

/-- EXTRACT.END (R155): offset 102. -/
def execExtractEnd (s : State) : Result :=
  onFrame s fun b r => { r with endMarker := memRead8 b 102 }

/-- LENCHK (R156): a declared length other than PAYLOAD_LEN raises InvalidPacketLength; otherwise REC
comes into existence (log entry 2). -/
def execLenchk (s : State) : Result :=
  match s.cur, s.rf with
  | some d, some r =>
    if payloadLenOk s.config r.len then .next { s with rc := some InverterRecord.blank }
    else .next (s.raise d (.invalidPacketLength r.len))
  | some _, none => .refused .noFrame
  | none, _ => .refused .noDelivery

/-- The 34 rows of FRAME103 in table order (R71, R120). -/
def frameStages : List (State → Result) :=
  [ execExtractStart, execExtractLen, execExtractCtrl, execExtractId1, execExtractId2,
    execExtractCmd, execExtractPtype, execExtractSerial, execExtractTemp, execExtractVdc1,
    execExtractVdc2, execSkipRsv0, execExtractAdc1, execExtractAdc2, execSkipRsv1,
    execExtractAac, execSkipRsv2, execExtractVac, execSkipRsv3, execExtractFac,
    execExtractPnow, execSkipRsv4, execExtractYday, execExtractToday, execExtractTotal,
    execSkipRsv5, execExtractStatus, execSkipRsv6, execExtractMonth, execSkipRsv7,
    execExtractLastMonth, execSkipRsv8, execExtractChecksum, execExtractEnd ]

/-- DECODE (R157): ACCEPT, every EXTRACT and SKIP in table order, LENCHK. -/
def execDecode (s : State) : Result :=
  runStages (execAccept :: frameStages ++ [execLenchk]) s

end Sys2Proof.Machine
end

