-- ==== Sys2Proof/Machine/Transactions.lean ====
section
/-! DEFINITION. The transactions (44_transactions.md): NONE (R87), DELIVER (R231), RESET (R233), the
reserved host code (R236), and the engine's step PROCESS (R232). -/

namespace Sys2Proof.Machine

/-- NONE, HOSTOP 0b00 (R87; 93_implementation_defined.md row 19: "no effect; the step is not a transaction"). -/
def execHostNone (s : State) : Result := .next s

/-- DELIVER (R231): enabled whatever PENDING holds, and the length is not compared with WIRE_LEN here. Its
operand has at most RX_MAX bytes; more never reach the block (D13), so a longer operand is refused (log
entry 8). -/
def execDeliver (bytes : List Byte) (s : State) : Result :=
  if bytes.length ≤ Config.rxMax then
    .next { s with pending := Memory.insert s.pending ⟨s.nextTag, bytes⟩, nextTag := s.nextTag + 1 }
  else .refused .overRxMax

/-- RESET (R233): entries pending are discarded with no event, and no transient record exists after it
(R31). CONFIG is unchanged; the model's own program and choice counter are too (log entry 5). -/
def execReset (s : State) : Result :=
  .next { s with pending := [], nextTag := 0, out := [], cur := none, rf := none, rc := none }

/-- HOSTOP 0b11 (R236): "a model refuses it". -/
def execReservedHostop3 (_s : State) : Result := .refused .reservedHostop

/-- The stages of PROCESS after the entry has been taken (R23, R232). DECODE holds ACCEPT and LENCHK
(R157), and the record is emitted last. -/
def processStages : List (State → Result) := [execDecode, execConvert, execStatus, emitRecord]

/-- PROCESS t (R232): enabled iff an entry with this tag is pending. The whole of it is one atomic step
(R230). -/
def execProcess (tag : Nat) (s : State) : Result :=
  match s.cur with
  | some _ => .refused .engineBusy
  | none =>
    match Memory.bytes? s.pending tag with
    | none => .refused .notPending
    | some bytes => runStages processStages (s.take tag bytes)

end Sys2Proof.Machine
end

