-- ==== Sys2Proof/Machine/Dispatch.lean ====
section
/-! DEFINITION. One arm for each operation of the opcode table, in the table's order. -/

namespace Sys2Proof.Machine

def exec (i : Instr) (s : State) : Host.Outcome State Fault Refusal :=
  match i with
  | .hostNone => Sys2Proof.Machine.execHostNone s
  | .deliver bytes => Sys2Proof.Machine.execDeliver bytes s
  | .reset => Sys2Proof.Machine.execReset s
  | .reservedHostop3 => Sys2Proof.Machine.execReservedHostop3 s
  | .process tag => Sys2Proof.Machine.execProcess tag s
  | .accept => Sys2Proof.Machine.execAccept s
  | .extractStart => Sys2Proof.Machine.execExtractStart s
  | .extractLen => Sys2Proof.Machine.execExtractLen s
  | .extractCtrl => Sys2Proof.Machine.execExtractCtrl s
  | .extractId1 => Sys2Proof.Machine.execExtractId1 s
  | .extractId2 => Sys2Proof.Machine.execExtractId2 s
  | .extractCmd => Sys2Proof.Machine.execExtractCmd s
  | .extractPtype => Sys2Proof.Machine.execExtractPtype s
  | .extractSerial => Sys2Proof.Machine.execExtractSerial s
  | .extractTemp => Sys2Proof.Machine.execExtractTemp s
  | .extractVdc1 => Sys2Proof.Machine.execExtractVdc1 s
  | .extractVdc2 => Sys2Proof.Machine.execExtractVdc2 s
  | .skipRsv0 => Sys2Proof.Machine.execSkipRsv0 s
  | .extractAdc1 => Sys2Proof.Machine.execExtractAdc1 s
  | .extractAdc2 => Sys2Proof.Machine.execExtractAdc2 s
  | .skipRsv1 => Sys2Proof.Machine.execSkipRsv1 s
  | .extractAac => Sys2Proof.Machine.execExtractAac s
  | .skipRsv2 => Sys2Proof.Machine.execSkipRsv2 s
  | .extractVac => Sys2Proof.Machine.execExtractVac s
  | .skipRsv3 => Sys2Proof.Machine.execSkipRsv3 s
  | .extractFac => Sys2Proof.Machine.execExtractFac s
  | .extractPnow => Sys2Proof.Machine.execExtractPnow s
  | .skipRsv4 => Sys2Proof.Machine.execSkipRsv4 s
  | .extractYday => Sys2Proof.Machine.execExtractYday s
  | .extractToday => Sys2Proof.Machine.execExtractToday s
  | .extractTotal => Sys2Proof.Machine.execExtractTotal s
  | .skipRsv5 => Sys2Proof.Machine.execSkipRsv5 s
  | .extractStatus => Sys2Proof.Machine.execExtractStatus s
  | .skipRsv6 => Sys2Proof.Machine.execSkipRsv6 s
  | .extractMonth => Sys2Proof.Machine.execExtractMonth s
  | .skipRsv7 => Sys2Proof.Machine.execSkipRsv7 s
  | .extractLastMonth => Sys2Proof.Machine.execExtractLastMonth s
  | .skipRsv8 => Sys2Proof.Machine.execSkipRsv8 s
  | .extractChecksum => Sys2Proof.Machine.execExtractChecksum s
  | .extractEnd => Sys2Proof.Machine.execExtractEnd s
  | .lenchk => Sys2Proof.Machine.execLenchk s
  | .decode => Sys2Proof.Machine.execDecode s
  | .convTemp => Sys2Proof.Machine.execConvTemp s
  | .convVdc1 => Sys2Proof.Machine.execConvVdc1 s
  | .convVdc2 => Sys2Proof.Machine.execConvVdc2 s
  | .convAdc1 => Sys2Proof.Machine.execConvAdc1 s
  | .convAdc2 => Sys2Proof.Machine.execConvAdc2 s
  | .convAac => Sys2Proof.Machine.execConvAac s
  | .convVac => Sys2Proof.Machine.execConvVac s
  | .convFac => Sys2Proof.Machine.execConvFac s
  | .convYday => Sys2Proof.Machine.execConvYday s
  | .convToday => Sys2Proof.Machine.execConvToday s
  | .convTotal => Sys2Proof.Machine.execConvTotal s
  | .convPnow => Sys2Proof.Machine.execConvPnow s
  | .convMonth => Sys2Proof.Machine.execConvMonth s
  | .convLastMonth => Sys2Proof.Machine.execConvLastMonth s
  | .convert => Sys2Proof.Machine.execConvert s
  | .statusOff => Sys2Proof.Machine.execStatusOff s
  | .statusReady => Sys2Proof.Machine.execStatusReady s
  | .statusGenerating => Sys2Proof.Machine.execStatusGenerating s
  | .statusNogrid => Sys2Proof.Machine.execStatusNogrid s
  | .statusUnknown => Sys2Proof.Machine.execStatusUnknown s
  | .status => Sys2Proof.Machine.execStatus s

end Sys2Proof.Machine
end

