-- ==== Sys2Proof/Machine/Step.lean ====
section
/-! DEFINITION. One step of GFP (R230). While the program holds operations, the step presents the next
one; when it is empty the host is idle and the engine processes a pending entry of its own free choice
(R234, R238), or nothing happens (R239). -/

namespace Sys2Proof.Machine

/-- The entry the engine takes when the program says nothing: any one, by a free value (R234; log
entries 6 and 7). -/
def freeEntry (s : State) : Option Delivery :=
  s.pending[Config.freePick s.choice % s.pending.length]?

/-- The step with an empty program: HOSTOP is 0b00, and the engine processes a pending entry if there is
one (R238). -/
def idleStep (s : State) : Host.Outcome State Fault Refusal :=
  match s.pending with
  | [] => exec .hostNone s
  | _ :: _ =>
    match freeEntry s with
    | some d => exec (.process d.tag) { s with choice := s.choice + 1 }
    | none => exec .hostNone s

/-- One step. -/
def step (s : State) : Host.Outcome State Fault Refusal :=
  match s.program with
  | [] => idleStep s
  | sl :: rest =>
    match decode sl with
    | .ok i => exec i { s with program := rest }
    | .error _ => .refused .undecodable

/-- The frame fields and records that a word of the opcode table is matched against, put where the
operation reads them: the LEN byte of the entry being processed for LENCHK (R156), RF.STATUS and
REC.PNOW_W for a STATUS16 row (R83). Nothing for any other word. -/
def State.withOperandsOf (s : State) (sl : Slot) (w : Nat) : State :=
  match sl with
  | .decoder _ =>
    { s with
      cur := some ⟨s.nextTag, 0 :: BitVec.ofNat 8 w :: List.replicate 101 0⟩
      rf := some { RawFrame.blank with len := BitVec.ofNat 8 w }
      rc := none }
  | .status16 code power =>
    { s with
      cur := some ⟨s.nextTag, List.replicate 79 0 ++ put16 code ++ List.replicate 22 0⟩
      rf := some { RawFrame.blank with status := code }
      rc := some { InverterRecord.blank with pnowW := power } }
  | _ => s

/-- The state whose next step runs this word of the opcode table: the word is presented first, before
the rest of the program, with the operands it is matched against in place (log entries 5 and 12). -/
def State.withFetchWord (s : State) (nbits w : Nat) : State :=
  { s.withOperandsOf (slotOfWord nbits w) w with program := slotOfWord nbits w :: s.program }

end Sys2Proof.Machine
end

