-- ==== Sys2Proof/Machine/Result.lean ====
section
/-! DEFINITION. The result of a delivery in closed form (R235): the raw frame of its bytes, the record of
a raw frame, and the event of a delivery. PROCESS does not call these: that it emits exactly this event
is a statement (R232). -/

namespace Sys2Proof.Machine

/-- Every field of RF as MemRead and Bytes of R8 give it at the offsets of R71. -/
def frameOf (b : List Byte) : RawFrame where
  start := memRead8 b 0
  len := memRead8 b 1
  ctrl := memRead16 b 2
  id1 := memRead32 b 4
  id2 := memRead32 b 8
  cmd := memRead8 b 12
  ptype := memRead16 b 13
  serial := bytesAt b 15 16
  temp := memRead16 b 31
  vdc1 := memRead16 b 33
  vdc2 := memRead16 b 35
  adc1 := memRead16 b 39
  adc2 := memRead16 b 41
  aac := memRead16 b 45
  vac := memRead16 b 51
  fac := memRead16 b 57
  pnow := memRead16 b 59
  yday := memRead16 b 67
  today := memRead16 b 69
  total := memRead32 b 71
  status := memRead16 b 79
  month := memRead16 b 87
  lastMonth := memRead16 b 91
  checksum := memRead8 b 101
  endMarker := memRead8 b 102

/-- Every field of REC from RF, by the map of R82. -/
def recordOf (r : RawFrame) : InverterRecord where
  tempC := scale r.temp.toNat 10
  vdc1V := scale r.vdc1.toNat 10
  vdc2V := scale r.vdc2.toNat 10
  adc1A := scale r.adc1.toNat 10
  adc2A := scale r.adc2.toNat 10
  aacA := scale r.aac.toNat 10
  vacV := scale r.vac.toNat 10
  facHz := scale r.fac.toNat 100
  pnowW := correctPower r.pnow
  eydayKwh := scale r.yday.toNat 100
  etodayKwh := scale r.today.toNat 100
  etotalKwh := scale r.total.toNat 10
  emonth := r.month
  elastMonth := r.lastMonth
  status := statusLabel r.status (correctPower r.pnow)

/-- The one event of a delivery (R232, R235, R255). -/
def resultEvent (c : Config) (d : Delivery) : Event :=
  if wireLenOk c d.bytes = false then .error d.tag (.wireLengthMismatch d.bytes.length d.bytes)
  else if payloadLenOk c (frameOf d.bytes).len = false then
    .error d.tag (.invalidPacketLength (frameOf d.bytes).len)
  else .record d.tag (recordOf (frameOf d.bytes))

end Sys2Proof.Machine
end

