-- ==== Sys2Proof/Safety.lean ====
section
/-! DEFINITION. What a claim may observe (R32), the invariant of the states between steps, the step relation
and its unending runs (R230), which of them are admitted (R238), and when a run is over (R239). -/

namespace Sys2Proof.Machine

/-- The tags of a set of pending deliveries. -/
def Memory.tags (m : Memory) : List Nat := m.map fun d => d.tag

/-- The tags of the events of a log. -/
def eventTags (out : List Event) : List Nat := out.map Event.tag

/-- What a claim may read (R32): OUT and the tags in PENDING. -/
def State.observe (s : State) : List Event × List Nat := (s.out, Memory.tags s.pending)

/-- No PROCESS step is in progress: no entry is being processed and RF and REC do not exist (R31). -/
abbrev State.Quiet (s : State) : Prop := s.cur = none ∧ s.rf = none ∧ s.rc = none

/-- Every tag given out since the last RESET is that of exactly one event or exactly one pending entry
(R26, R27, R237): the two together list 0 to NEXT_TAG - 1, each once. -/
abbrev State.Accounted (s : State) : Prop :=
  (eventTags s.out ++ Memory.tags s.pending).Perm (List.range s.nextTag)

/-- The invariant of the states between steps: WIRE_LEN is 103 (R5), no PROCESS step is half done
(R230), PENDING is in its canonical form and its entries have at most RX_MAX bytes (R27), and every delivery
is accounted for (R237). -/
abbrev State.Inv (s : State) : Prop :=
  s.config.wireLen = 103 ∧ s.Quiet ∧ Memory.wf s.pending ∧ Memory.bounded s.pending ∧ s.Accounted

/-- The run is over (R239): nothing is left to present and nothing is pending. -/
abbrev State.Done (s : State) : Prop := s.program = [] ∧ s.pending = []

/-! ### Unending runs -/

/-- The steps of the relation of R230: DELIVER, RESET and PROCESS, and NONE, "no transaction this step" (R87). -/
def IsStep (i : Instr) : Prop :=
  i = .hostNone ∨ (∃ bytes, i = .deliver bytes) ∨ i = .reset ∨ ∃ tag, i = .process tag

/-- Operation `i` takes the block from `s` to `t`. The model's own fields, the operations still to be presented
and the choice counter, are free: the host may present anything at any time (R234; log entry 16). -/
def State.Takes (i : Instr) (s t : State) : Prop :=
  exec i { s with program := t.program, choice := t.choice } = .next t

/-- The step relation of R230: any enabled step may be taken next. -/
def State.StepsTo (s t : State) : Prop := ∃ i, IsStep i ∧ State.Takes i s t

/-- An unending run: a state at every moment, each taken to the next by one step. Host steps may go on for ever,
and a run that has ended (R239) goes on by NONE. -/
def IsRun (r : Nat → State) : Prop := (r 0).Inv ∧ ∀ n, (r n).StepsTo (r (n + 1))

/-- Fairness (R238): no entry stays in PENDING for ever. PROCESS of an entry is enabled for as long as the entry
is pending (R232), so nothing else need be asked. -/
def Fair (r : Nat → State) : Prop :=
  ∀ n, ∀ t ∈ Memory.tags (r n).pending, ∃ m, n ≤ m ∧ t ∉ Memory.tags (r m).pending

/-- The runs that are admitted (R238): a claim that a result appears is a claim about these. -/
def Admitted (r : Nat → State) : Prop := IsRun r ∧ Fair r

end Sys2Proof.Machine
end

