-- ==== Sys2Proof/Certificates/Slice0/Obligations.lean ====
section
/-! DEFINITION. The statements for the provers. A statement's docstring names the rules of spec/ it rests on,
and the log entry of any choice of the model's own. -/

open Sys2Proof Sys2Proof.Machine

/-- The four HOSTOP codes of R87 (the codes are the spec's decision D21). -/
def Obligations.HostopCodesDecode : Prop :=
  ∀ bytes : List Byte,
    decode (.host 0b00 bytes) = .ok .hostNone ∧
    decode (.host 0b01 bytes) = .ok (.deliver bytes) ∧
    decode (.host 0b10 bytes) = .ok .reset ∧
    decode (.host 0b11 bytes) = .ok .reservedHostop3

/-- The table of R71: 34 rows numbered 1 to 34 that tile bytes 0 to 102 with no gap or overlap (R72, which the
spec marks as derived), each with the bit range `F[hi:lo]` that R7 gives its bytes. -/
def Obligations.Frame103TableTilesTheFrame : Prop :=
  frameRows.map (·.num) = (List.range 34).map (· + 1) ∧
  (∀ n < 34, (frameRows.map (·.offset))[n]? = some ((frameRows.map (·.width)).take n).sum) ∧
  (frameRows.map (·.width)).sum = 103 ∧
  (∀ r ∈ frameRows, r.hi + 1 = 8 * (103 - r.offset) ∧ r.lo = 8 * (103 - r.offset - r.width))

/-- The HOSTOP, LENCHK and STATUS16 words that the opcode table prints, and samples of the model's own numbers for
the internal operations. Which format a word belongs to, and that a STATUS16 word comes with power operand 0 (so
0x0003 is OFF), is the model's choice (log entry 12). The table prints no words for the clauses on `.decoder` and
`.converter`: their stage and row numbers are the model's choice too (log entry 11). -/
def Obligations.TableWordsDecode : Prop :=
  decodeTableWord 8 0b00 = some .hostNone ∧
  decodeTableWord 8 0b01 = some (.deliver []) ∧
  decodeTableWord 8 0b10 = some .reset ∧
  decodeTableWord 8 0b11 = some .reservedHostop3 ∧
  decodeTableWord 8 0x59 = some .lenchk ∧
  decodeTableWord 16 0x0003 = some .statusOff ∧
  decodeTableWord 16 0x0000 = some .statusReady ∧
  decodeTableWord 16 0x1015 = some .statusNogrid ∧
  decode (.status16 0x0003 1732) = .ok .statusGenerating ∧
  decode (.status16 0x1510 0) = .ok .statusUnknown ∧
  decode (.decoder 9) = .ok .extractTemp ∧
  decode (.decoder 12) = .ok .skipRsv0 ∧
  decode (.converter 9) = .ok .convTemp ∧
  decode (.decoder 36) = .error (.noDecoderStage 36)

/-- Decoding what the encoder presents gives the operation back, with its operands. The codes of the engine's
internal operations are the model's choice (log entry 11). -/
def Obligations.DecodeOfEncodeIsTheOperation : Prop :=
  ∀ i : Instr, i.wf = true → decode (encode i) = .ok i

/-- A step takes the next operation of the program, decodes it and runs it on the state without it; a slot that
decodes to nothing is refused. The program is the model's own field (log entry 5), and that a slot without a code is
refused as undecodable is the model's choice (log entry 11). -/
def Obligations.StepRunsTheDecodedOperation : Prop :=
  ∀ (s : State) (sl : Slot) (rest : List Slot), s.program = sl :: rest →
    (∀ i, decode sl = .ok i → step s = exec i { s with program := rest }) ∧
    (∀ e, decode sl = .error e → step s = .refused .undecodable)

/-- With nothing left to present, a step processes some pending entry, whichever (R234, R238), or does nothing
when none is pending (R239). That the idle step is the engine's is the model's choice (log entries 6, 7). -/
def Obligations.IdleStepProcessesAFreelyChosenEntry : Prop :=
  ∀ s : State, s.program = [] →
    (s.pending = [] → step s = .next s) ∧
    (s.pending ≠ [] → ∃ d ∈ s.pending,
      step s = exec (.process d.tag) { s with choice := s.choice + 1 })

/-- The state at power-on (R31, R270, R271; the values other than the constants are decision D15). The empty
program is log entry 5. -/
def Obligations.ResetStateIsAsTheSpecGivesIt : Prop :=
  State.reset.config.wireLen = 103 ∧ State.reset.config.payloadLen = 89 ∧
  State.reset.pending = [] ∧ State.reset.nextTag = 0 ∧ State.reset.out = [] ∧
  State.reset.cur = none ∧ State.reset.rf = none ∧ State.reset.rc = none ∧
  State.reset.program = []

/-- The invariant of the states between steps holds at reset. -/
def Obligations.ResetStateSatisfiesTheInvariant : Prop :=
  State.reset.Inv

/-- RESET (R233, decision D15): PENDING, NEXT_TAG and OUT cleared, the transient records gone (R31), CONFIG and the
model's own fields unchanged (log entry 5). -/
def Obligations.ResetTransactionClearsTheBlock : Prop :=
  ∀ s : State, exec .reset s =
    .next { s with pending := [], nextTag := 0, out := [], cur := none, rf := none, rc := none }

/-- DELIVER (R231): enabled in every state for every operand the rule gives it, 0 to RX_MAX bytes. Under the invariant,
reading PENDING afterwards gives the delivered bytes at the new tag and every other entry as before. For more than
RX_MAX bytes the rule gives no effect (R231, D13), and that the model refuses them is its choice (log entry 8). -/
def Obligations.DeliverAddsTheDeliveryUnderANewTag : Prop :=
  (∀ (bytes : List Byte) (s : State), bytes.length ≤ Config.rxMax → exec (.deliver bytes) s =
    .next { s with pending := s.pending ++ [⟨s.nextTag, bytes⟩], nextTag := s.nextTag + 1 }) ∧
  (∀ (bytes : List Byte) (s : State), Config.rxMax < bytes.length →
    exec (.deliver bytes) s = .refused .overRxMax) ∧
  (∀ (bytes : List Byte) (s t : State), s.Inv → exec (.deliver bytes) s = .next t →
    ∀ u, Memory.bytes? t.pending u =
      if u = s.nextTag then some bytes else Memory.bytes? s.pending u)

/-- NONE (R87) has no effect; a SKIP reads and writes nothing (R120, R78). The spec gives SKIP as a stage of a PROCESS
step only: that it completes in every state, also with no entry in hand, is log entry 3 (DEDUCED). -/
def Obligations.NoneAndSkipsChangeNothing : Prop :=
  ∀ s : State, ∀ i ∈ [Instr.hostNone, .skipRsv0, .skipRsv1, .skipRsv2, .skipRsv3, .skipRsv4,
    .skipRsv5, .skipRsv6, .skipRsv7, .skipRsv8], exec i s = .next s

/-- HOSTOP 0b11 (R236, decision D21): a model refuses it. -/
def Obligations.ReservedHostCodeIsRefused : Prop :=
  ∀ s : State, exec .reservedHostop3 s = .refused .reservedHostop

/-- ACCEPT (R121). That RF starts to exist here, with the contents of `RawFrame.blank`, is the model's choice (log
entries 1 and 2). -/
def Obligations.AcceptChecksTheByteCount : Prop :=
  ∀ (s : State) (d : Delivery), s.cur = some d →
    (d.bytes.length = s.config.wireLen →
      exec .accept s = .next { s with rf := some RawFrame.blank, rc := none }) ∧
    (d.bytes.length ≠ s.config.wireLen →
      exec .accept s = .next { s with
        out := s.out ++ [.error d.tag (.wireLengthMismatch d.bytes.length d.bytes)]
        cur := none, rf := none, rc := none })

/-- The five u8 fields (R122, R123, R127, R154, R155): each is its byte, every value legal, nothing else changed. -/
def Obligations.ExtractOneByteFields : Prop :=
  ∀ (s : State) (d : Delivery) (r : RawFrame), s.cur = some d → s.rf = some r →
    d.bytes.length = 103 →
    exec .extractStart s = .next { s with rf := some { r with start := byteAt d.bytes 0 } } ∧
    exec .extractLen s = .next { s with rf := some { r with len := byteAt d.bytes 1 } } ∧
    exec .extractCmd s = .next { s with rf := some { r with cmd := byteAt d.bytes 12 } } ∧
    exec .extractChecksum s = .next { s with rf := some { r with checksum := byteAt d.bytes 101 } } ∧
    exec .extractEnd s = .next { s with rf := some { r with endMarker := byteAt d.bytes 102 } }

/-- The sixteen u16 fields (R124 to R152): the byte at the lower offset is the more significant (R51, R7). -/
def Obligations.ExtractTwoByteFields : Prop :=
  ∀ (s : State) (d : Delivery) (r : RawFrame), s.cur = some d → s.rf = some r →
    d.bytes.length = 103 →
    exec .extractCtrl s = .next { s with rf := some { r with ctrl := byteAt d.bytes 2 ++ byteAt d.bytes 3 } } ∧
    exec .extractPtype s = .next { s with rf := some { r with ptype := byteAt d.bytes 13 ++ byteAt d.bytes 14 } } ∧
    exec .extractTemp s = .next { s with rf := some { r with temp := byteAt d.bytes 31 ++ byteAt d.bytes 32 } } ∧
    exec .extractVdc1 s = .next { s with rf := some { r with vdc1 := byteAt d.bytes 33 ++ byteAt d.bytes 34 } } ∧
    exec .extractVdc2 s = .next { s with rf := some { r with vdc2 := byteAt d.bytes 35 ++ byteAt d.bytes 36 } } ∧
    exec .extractAdc1 s = .next { s with rf := some { r with adc1 := byteAt d.bytes 39 ++ byteAt d.bytes 40 } } ∧
    exec .extractAdc2 s = .next { s with rf := some { r with adc2 := byteAt d.bytes 41 ++ byteAt d.bytes 42 } } ∧
    exec .extractAac s = .next { s with rf := some { r with aac := byteAt d.bytes 45 ++ byteAt d.bytes 46 } } ∧
    exec .extractVac s = .next { s with rf := some { r with vac := byteAt d.bytes 51 ++ byteAt d.bytes 52 } } ∧
    exec .extractFac s = .next { s with rf := some { r with fac := byteAt d.bytes 57 ++ byteAt d.bytes 58 } } ∧
    exec .extractPnow s = .next { s with rf := some { r with pnow := byteAt d.bytes 59 ++ byteAt d.bytes 60 } } ∧
    exec .extractYday s = .next { s with rf := some { r with yday := byteAt d.bytes 67 ++ byteAt d.bytes 68 } } ∧
    exec .extractToday s = .next { s with rf := some { r with today := byteAt d.bytes 69 ++ byteAt d.bytes 70 } } ∧
    exec .extractStatus s = .next { s with rf := some { r with status := byteAt d.bytes 79 ++ byteAt d.bytes 80 } } ∧
    exec .extractMonth s = .next { s with rf := some { r with month := byteAt d.bytes 87 ++ byteAt d.bytes 88 } } ∧
    exec .extractLastMonth s = .next { s with rf := some { r with lastMonth := byteAt d.bytes 91 ++ byteAt d.bytes 92 } }

/-- The three u32 fields (R125, R126, R146), big-endian. -/
def Obligations.ExtractFourByteFields : Prop :=
  ∀ (s : State) (d : Delivery) (r : RawFrame), s.cur = some d → s.rf = some r →
    d.bytes.length = 103 →
    exec .extractId1 s = .next { s with rf := some { r with id1 := byteAt d.bytes 4 ++ byteAt d.bytes 5 ++ byteAt d.bytes 6 ++ byteAt d.bytes 7 } } ∧
    exec .extractId2 s = .next { s with rf := some { r with id2 := byteAt d.bytes 8 ++ byteAt d.bytes 9 ++ byteAt d.bytes 10 ++ byteAt d.bytes 11 } } ∧
    exec .extractTotal s = .next { s with rf := some { r with total := byteAt d.bytes 71 ++ byteAt d.bytes 72 ++ byteAt d.bytes 73 ++ byteAt d.bytes 74 } }

/-- SERIAL (R129, R77): the bytes 15 to 30 as they are, in order. -/
def Obligations.ExtractSerialKeepsTheSixteenBytes : Prop :=
  ∀ (s : State) (d : Delivery) (r : RawFrame), s.cur = some d → s.rf = some r →
    d.bytes.length = 103 →
    exec .extractSerial s = .next { s with rf := some { r with serial := bytesAt d.bytes 15 16 } } ∧
    (bytesAt d.bytes 15 16).length = 16 ∧
    ∀ i < 16, (bytesAt d.bytes 15 16)[i]? = d.bytes[15 + i]?

/-- R71 against R7: with the whole frame read as the 824-bit integer F, each integer field is the range F[hi:lo]
that the table prints for it. -/
def Obligations.EveryIntegerFieldIsItsRangeOfTheFrameInteger : Prop :=
  ∀ b : List Byte,
    (frameOf b).start = (frameInt b).extractLsb' 816 8 ∧
    (frameOf b).len = (frameInt b).extractLsb' 808 8 ∧
    (frameOf b).ctrl = (frameInt b).extractLsb' 792 16 ∧
    (frameOf b).id1 = (frameInt b).extractLsb' 760 32 ∧
    (frameOf b).id2 = (frameInt b).extractLsb' 728 32 ∧
    (frameOf b).cmd = (frameInt b).extractLsb' 720 8 ∧
    (frameOf b).ptype = (frameInt b).extractLsb' 704 16 ∧
    (frameOf b).temp = (frameInt b).extractLsb' 560 16 ∧
    (frameOf b).vdc1 = (frameInt b).extractLsb' 544 16 ∧
    (frameOf b).vdc2 = (frameInt b).extractLsb' 528 16 ∧
    (frameOf b).adc1 = (frameInt b).extractLsb' 496 16 ∧
    (frameOf b).adc2 = (frameInt b).extractLsb' 480 16 ∧
    (frameOf b).aac = (frameInt b).extractLsb' 448 16 ∧
    (frameOf b).vac = (frameInt b).extractLsb' 400 16 ∧
    (frameOf b).fac = (frameInt b).extractLsb' 352 16 ∧
    (frameOf b).pnow = (frameInt b).extractLsb' 336 16 ∧
    (frameOf b).yday = (frameInt b).extractLsb' 272 16 ∧
    (frameOf b).today = (frameInt b).extractLsb' 256 16 ∧
    (frameOf b).total = (frameInt b).extractLsb' 224 32 ∧
    (frameOf b).status = (frameInt b).extractLsb' 176 16 ∧
    (frameOf b).month = (frameInt b).extractLsb' 112 16 ∧
    (frameOf b).lastMonth = (frameInt b).extractLsb' 80 16 ∧
    (frameOf b).checksum = (frameInt b).extractLsb' 8 8 ∧
    (frameOf b).endMarker = (frameInt b).extractLsb' 0 8

/-- R64 (which the spec marks as derived): a model that lets DECODE run on another length must refuse it, not read
beyond the sequence. Log entry 3. -/
def Obligations.ExtractIsRefusedOffTheFrame : Prop :=
  ∀ (s : State) (d : Delivery) (r : RawFrame), s.cur = some d → s.rf = some r →
    d.bytes.length ≠ 103 →
    ∀ i ∈ [Instr.extractStart, .extractLen, .extractCtrl, .extractId1, .extractId2, .extractCmd,
      .extractPtype, .extractSerial, .extractTemp, .extractVdc1, .extractVdc2, .extractAdc1,
      .extractAdc2, .extractAac, .extractVac, .extractFac, .extractPnow, .extractYday,
      .extractToday, .extractTotal, .extractStatus, .extractMonth, .extractLastMonth,
      .extractChecksum, .extractEnd],
      exec i s = .refused .notFrameLength

/-- LENCHK (R156). That REC starts to exist here is the model's choice (log entries 1 and 2). -/
def Obligations.LenchkComparesTheDeclaredLength : Prop :=
  ∀ (s : State) (d : Delivery) (r : RawFrame), s.cur = some d → s.rf = some r →
    (r.len = s.config.payloadLen →
      exec .lenchk s = .next { s with rc := some InverterRecord.blank }) ∧
    (r.len ≠ s.config.payloadLen →
      exec .lenchk s = .next { s with
        out := s.out ++ [.error d.tag (.invalidPacketLength r.len)]
        cur := none, rf := none, rc := none })

/-- DECODE (R157): the closed form of the whole decoder. It depends on the bytes and PAYLOAD_LEN alone, and RF is
what MemRead and Bytes give at the offsets of R71, whatever RF and REC held before. The contents that REC
is created with (`InverterRecord.blank`) are log entry 1 (DESIGN CHOICE, unsafe), and that it starts to exist here is
log entry 2. -/
def Obligations.DecodeIsOneFunctionOfTheBytes : Prop :=
  ∀ (s : State) (d : Delivery), s.cur = some d → s.config.wireLen = 103 →
    (d.bytes.length ≠ 103 → exec .decode s = .next { s with
      out := s.out ++ [.error d.tag (.wireLengthMismatch d.bytes.length d.bytes)]
      cur := none, rf := none, rc := none }) ∧
    (d.bytes.length = 103 → (frameOf d.bytes).len ≠ s.config.payloadLen →
      exec .decode s = .next { s with
        out := s.out ++ [.error d.tag (.invalidPacketLength (frameOf d.bytes).len)]
        cur := none, rf := none, rc := none }) ∧
    (d.bytes.length = 103 → (frameOf d.bytes).len = s.config.payloadLen →
      exec .decode s = .next { s with
        rf := some (frameOf d.bytes), rc := some InverterRecord.blank })

/-- The eleven scaled fields (R172 to R182): each REC field is SCALE of its raw field by 10 or 100, nothing else
changed. -/
def Obligations.ScaledConversionsDivideOnce : Prop :=
  ∀ (s : State) (d : Delivery) (r : RawFrame) (c : InverterRecord),
    s.cur = some d → s.rf = some r → s.rc = some c →
    exec .convTemp s = .next { s with rc := some { c with tempC := scale r.temp.toNat 10 } } ∧
    exec .convVdc1 s = .next { s with rc := some { c with vdc1V := scale r.vdc1.toNat 10 } } ∧
    exec .convVdc2 s = .next { s with rc := some { c with vdc2V := scale r.vdc2.toNat 10 } } ∧
    exec .convAdc1 s = .next { s with rc := some { c with adc1A := scale r.adc1.toNat 10 } } ∧
    exec .convAdc2 s = .next { s with rc := some { c with adc2A := scale r.adc2.toNat 10 } } ∧
    exec .convAac s = .next { s with rc := some { c with aacA := scale r.aac.toNat 10 } } ∧
    exec .convVac s = .next { s with rc := some { c with vacV := scale r.vac.toNat 10 } } ∧
    exec .convFac s = .next { s with rc := some { c with facHz := scale r.fac.toNat 100 } } ∧
    exec .convYday s = .next { s with rc := some { c with eydayKwh := scale r.yday.toNat 100 } } ∧
    exec .convToday s = .next { s with rc := some { c with etodayKwh := scale r.today.toNat 100 } } ∧
    exec .convTotal s = .next { s with rc := some { c with etotalKwh := scale r.total.toNat 10 } }

/-- SCALE (R170, R171, decision D6): no binary64 is nearer to the exact quotient raw / d than the result (distances
compared exactly, in units of 2^-1074 / d), and where another is equally near the result's significand is
even. A negative binary64 is never nearer to a quotient that is not negative. -/
def Obligations.ScaleIsTheNearestBinary64 : Prop :=
  ∀ (raw : BitVec 32) (d : Nat), d = 10 ∨ d = 100 →
    ∀ x : Binary64, x.toNat < 0x7FF0000000000000 →
      let q : Int := raw.toNat * 2 ^ 1074
      let err (y : Binary64) : Nat := ((binary64Units y : Int) * d - q).natAbs
      err (scale raw.toNat d) ≤ err x ∧
      (err (scale raw.toNat d) = err x → x = scale raw.toNat d ∨
        (scale raw.toNat d).toNat % 2 = 0)

/-- R93 (which the spec marks as derived): +0.0 for raw 0, otherwise a normal number with sign 0, at most the pattern of
429496729.5 and at least that of RNE64(1/100). -/
def Obligations.ScaleStaysInTheNormalRange : Prop :=
  ∀ (raw : BitVec 32) (d : Nat), d = 10 ∨ d = 100 →
    (raw = 0 → scale raw.toNat d = 0x0000000000000000) ∧
    (raw ≠ 0 → 0x3F847AE147AE147B ≤ (scale raw.toNat d).toNat ∧
      (scale raw.toNat d).toNat ≤ 0x41B9999999800000)

/-- CONV.PNOW (R183, decisions D7, D19; R94): the largest integer whose square does not exceed 3 raw², at most
113509, nothing else changed. -/
def Obligations.PowerCorrectionIsTheExactFloor : Prop :=
  ∀ (s : State) (d : Delivery) (r : RawFrame) (c : InverterRecord),
    s.cur = some d → s.rf = some r → s.rc = some c →
    ∃ p : BitVec 32,
      exec .convPnow s = .next { s with rc := some { c with pnowW := p } } ∧
      p.toNat * p.toNat ≤ 3 * r.pnow.toNat * r.pnow.toNat ∧
      3 * r.pnow.toNat * r.pnow.toNat < (p.toNat + 1) * (p.toNat + 1) ∧
      p.toNat ≤ 113509

/-- CONV.MONTH and CONV.LASTMONTH (R184, R185): unscaled copies. -/
def Obligations.MonthFieldsAreCopied : Prop :=
  ∀ (s : State) (d : Delivery) (r : RawFrame) (c : InverterRecord),
    s.cur = some d → s.rf = some r → s.rc = some c →
    exec .convMonth s = .next { s with rc := some { c with emonth := r.month } } ∧
    exec .convLastMonth s = .next { s with rc := some { c with elastMonth := r.lastMonth } }

/-- CONVERT (R186, R82): the record depends on RF alone, whatever REC held before. That CONVERT ends with STATUS is
log entry 9. -/
def Obligations.ConvertWritesEveryFieldOfTheRecord : Prop :=
  ∀ (s : State) (d : Delivery) (r : RawFrame) (c : InverterRecord),
    s.cur = some d → s.rf = some r → s.rc = some c →
    exec .convert s = .next { s with rc := some (recordOf r) }

/-- The rows of STATUS16 (R83, R210, R211) as operations: a row that hits gives REC.STATUS its label, one that does not
hit changes nothing (log entry 10). -/
def Obligations.StatusRowsWriteTheirLabelWhenTheyHit : Prop :=
  ∀ (s : State) (d : Delivery) (r : RawFrame) (c : InverterRecord),
    s.cur = some d → s.rf = some r → s.rc = some c →
    exec .statusOff s = .next { s with rc := some { c with status :=
      if r.status = 0x0003 ∧ c.pnowW = 0 then .off else c.status } } ∧
    exec .statusReady s = .next { s with rc := some { c with status :=
      if r.status = 0x0000 then .ready else c.status } } ∧
    exec .statusGenerating s = .next { s with rc := some { c with status :=
      if r.status = 0x0003 ∧ c.pnowW ≠ 0 then .generating else c.status } } ∧
    exec .statusNogrid s = .next { s with rc := some { c with status :=
      if r.status = 0x1015 then .noGrid else c.status } } ∧
    exec .statusUnknown s = .next { s with rc := some { c with status :=
      if r.status ≠ 0x0000 ∧ r.status ≠ 0x0003 ∧ r.status ≠ 0x1015 then .unknown else c.status } }

/-- STATUS (R212), with the corner case of its rule: it runs after CONV.PNOW, so raw code 0x0003 is Off at raw power 0
and Generating at raw power 1. That CONVERT ends with STATUS, which the last two clauses use, is log entry 9 (DEDUCED). -/
def Obligations.StatusOverrideTakesPrecedenceOverTheLookup : Prop :=
  ∀ (s : State) (d : Delivery) (r : RawFrame) (c : InverterRecord),
    s.cur = some d → s.rf = some r → s.rc = some c →
    exec .status s = .next { s with rc := some { c with status :=
        if r.status = 0x0003 ∧ c.pnowW = 0 then .off else statmap r.status } } ∧
    (r.status = 0x0003 → r.pnow = 0 → ∃ c', exec .convert s = .next { s with rc := some c' } ∧
      c'.pnowW = 0 ∧ c'.status = .off) ∧
    (r.status = 0x0003 → r.pnow = 1 → ∃ c', exec .convert s = .next { s with rc := some c' } ∧
      c'.pnowW = 1 ∧ c'.status = .generating)

/-- STATMAP (R210), on all 16 bits, with the corner cases of its rule and its byte-order remark. -/
def Obligations.StatmapIsTheClosedLookup : Prop :=
  (∀ code : BitVec 16,
    (code = 0x0000 → statmap code = .ready ∧ (statmap code).code = 0) ∧
    (code = 0x0003 → statmap code = .generating ∧ (statmap code).code = 1) ∧
    (code = 0x1015 → statmap code = .noGrid ∧ (statmap code).code = 2) ∧
    (code ≠ 0x0000 → code ≠ 0x0003 → code ≠ 0x1015 →
      statmap code = .unknown ∧ (statmap code).code = 3)) ∧
  (∀ b : List Byte, byteAt b 79 = 0x10 → byteAt b 80 = 0x15 →
    statmap (frameOf b).status = .noGrid) ∧
  (∀ b : List Byte, byteAt b 79 = 0x15 → byteAt b 80 = 0x10 →
    statmap (frameOf b).status = .unknown)

/-- R83: the rows tried in order, first hit wins. Running the five rows as operations, in the order of the table,
is STATUS, in every state (the rows as operations: log entry 10). -/
def Obligations.StatusIsTheFirstHitOfItsRows : Prop :=
  ∀ s : State,
    runStages [exec .statusOff, exec .statusReady, exec .statusGenerating, exec .statusNogrid,
      exec .statusUnknown] s = exec .status s

/-- R214 (which the spec marks as derived): the corrected power is zero exactly when the raw power is, so the label is
Off exactly when RF.STATUS is 0x0003 and RF.PNOW is 0. -/
def Obligations.OffExactlyAtZeroRawPower : Prop :=
  (∀ raw : BitVec 16, correctPower raw = 0 ↔ raw = 0) ∧
  (∀ r : RawFrame, (recordOf r).status = .off ↔ r.status = 0x0003 ∧ r.pnow = 0)

/-- The codes and strings of R84, R85 and R86 (numbers are decisions D8, D9). -/
def Obligations.LabelAndErrorCodes : Prop :=
  Label.ready.code = 0b000 ∧ Label.generating.code = 0b001 ∧ Label.noGrid.code = 0b010 ∧
  Label.unknown.code = 0b011 ∧ Label.off.code = 0b100 ∧
  Label.ready.text = "Ready" ∧ Label.generating.text = "Generating" ∧
  Label.noGrid.text = "No grid" ∧ Label.unknown.text = "Unknown" ∧ Label.off.text = "Off" ∧
  (∀ n b, (ErrorInfo.wireLengthMismatch n b).code = 1) ∧
  (∀ v, (ErrorInfo.invalidPacketLength v).code = 2)

/-- PROCESS t (R232), the composition of all its stages, against the closed form of the result: the entry leaves
PENDING, exactly one event is appended, no transient record survives, and nothing else changes. -/
def Obligations.ProcessEmitsTheResultOfTheDelivery : Prop :=
  ∀ (s : State) (t : Nat) (bytes : List Byte), s.cur = none → s.rf = none → s.rc = none →
    s.config.wireLen = 103 → Memory.bytes? s.pending t = some bytes →
    exec (.process t) s = .next { s with
      pending := Memory.remove s.pending t
      out := s.out ++ [resultEvent s.config ⟨t, bytes⟩] }

/-- PROCESS t is enabled iff t is pending (R232), and steps are atomic (R230): a second PROCESS inside one is refused
(log entry 3). -/
def Obligations.ProcessIsEnabledOnlyOnAPendingTag : Prop :=
  (∀ (s : State) (t : Nat), s.cur = none → Memory.bytes? s.pending t = none →
    exec (.process t) s = .refused .notPending) ∧
  (∀ (s : State) (t : Nat) (d : Delivery), s.cur = some d →
    exec (.process t) s = .refused .engineBusy)

/-- R255: a wrong byte count gives WireLengthMismatch whatever byte 1 holds; InvalidPacketLength comes only from a
103-byte delivery; the one event is the only one, and the delivery is finished. The record is R232. What each error
carries is R251 and R252, with decision D9 for InvalidPacketLength ("a claim should not depend on it"). -/
def Obligations.OneErrorInStageOrderAndNoRetry : Prop :=
  ∀ (s : State) (t : Nat) (bytes : List Byte), s.Inv → Memory.bytes? s.pending t = some bytes →
    ∃ (s' : State) (e : Event), exec (.process t) s = .next s' ∧ s'.out = s.out ++ [e] ∧
      Memory.bytes? s'.pending t = none ∧
      (bytes.length ≠ 103 → e = .error t (.wireLengthMismatch bytes.length bytes)) ∧
      (bytes.length = 103 → byteAt bytes 1 ≠ s.config.payloadLen →
        e = .error t (.invalidPacketLength (byteAt bytes 1))) ∧
      (bytes.length = 103 → byteAt bytes 1 = s.config.payloadLen → ∃ rc, e = .record t rc)

/-- R253: CONVERT and STATUS complete on every RF and emit nothing, and a 103-byte delivery with the right LEN gives a
Record whatever its other bytes hold. -/
def Obligations.NoOtherErrorExists : Prop :=
  (∀ (s : State) (d : Delivery) (r : RawFrame) (c : InverterRecord),
    s.cur = some d → s.rf = some r → s.rc = some c →
    (∃ t, exec .convert s = .next t ∧ t.out = s.out ∧ t.cur = some d) ∧
    (∃ t, exec .status s = .next t ∧ t.out = s.out ∧ t.cur = some d)) ∧
  (∀ (s : State) (t : Nat) (bytes : List Byte), s.Inv → Memory.bytes? s.pending t = some bytes →
    bytes.length = 103 → byteAt bytes 1 = s.config.payloadLen →
    ∃ (s' : State) (rc : InverterRecord), exec (.process t) s = .next s' ∧
      s'.out = s.out ++ [.record t rc])

/-- R235: two deliveries of the same bytes, in any two states with the same PAYLOAD_LEN, whatever their tags, the other
entries and the earlier results, give events that differ only in their tag. -/
def Obligations.ResultIsAFunctionOfTheBytesAlone : Prop :=
  ∀ (s s' : State) (t t' : Nat) (bytes : List Byte), s.Inv → s'.Inv →
    s.config.payloadLen = s'.config.payloadLen →
    Memory.bytes? s.pending t = some bytes → Memory.bytes? s'.pending t' = some bytes →
    ∃ (u u' : State), exec (.process t) s = .next u ∧ exec (.process t') s' = .next u' ∧
      ((∃ rc, u.out = s.out ++ [.record t rc] ∧ u'.out = s'.out ++ [.record t' rc]) ∨
        (∃ info, u.out = s.out ++ [.error t info] ∧ u'.out = s'.out ++ [.error t' info]))

/-- R78: two 103-byte deliveries that agree outside RSV0 to RSV8 give the same event. -/
def Obligations.ReservedBytesNeverChangeAResult : Prop :=
  ∀ (s s' : State) (t : Nat) (b b' : List Byte), s.Inv → s'.Inv → s.config = s'.config →
    b.length = 103 → b'.length = 103 →
    (∀ i < 103, ¬ (37 ≤ i ∧ i ≤ 38) ∧ ¬ (43 ≤ i ∧ i ≤ 44) ∧ ¬ (47 ≤ i ∧ i ≤ 50) ∧
      ¬ (53 ≤ i ∧ i ≤ 56) ∧ ¬ (61 ≤ i ∧ i ≤ 66) ∧ ¬ (75 ≤ i ∧ i ≤ 78) ∧
      ¬ (81 ≤ i ∧ i ≤ 86) ∧ ¬ (89 ≤ i ∧ i ≤ 90) ∧ ¬ (93 ≤ i ∧ i ≤ 100) → byteAt b i = byteAt b' i) →
    Memory.bytes? s.pending t = some b → Memory.bytes? s'.pending t = some b' →
    ∃ (u u' : State) (e : Event), exec (.process t) s = .next u ∧ exec (.process t) s' = .next u' ∧
      u.out = s.out ++ [e] ∧ u'.out = s'.out ++ [e]

/-- R76, R77, R79 and R80: the opaque fields, SERIAL, CHECKSUM and END are extracted as they are, every value is legal, and
none reaches the event. -/
def Obligations.OpaqueAndUncheckedFieldsNeverReachTheResult : Prop :=
  (∀ (s : State) (d : Delivery), s.cur = some d → s.config.wireLen = 103 → d.bytes.length = 103 →
    byteAt d.bytes 1 = s.config.payloadLen →
    ∃ (u : State) (r : RawFrame), exec .decode s = .next u ∧ u.out = s.out ∧ u.rf = some r ∧
      r.ctrl = byteAt d.bytes 2 ++ byteAt d.bytes 3 ∧
      r.id1 = byteAt d.bytes 4 ++ byteAt d.bytes 5 ++ byteAt d.bytes 6 ++ byteAt d.bytes 7 ∧
      r.id2 = byteAt d.bytes 8 ++ byteAt d.bytes 9 ++ byteAt d.bytes 10 ++ byteAt d.bytes 11 ∧
      r.cmd = byteAt d.bytes 12 ∧ r.ptype = byteAt d.bytes 13 ++ byteAt d.bytes 14 ∧
      r.serial = bytesAt d.bytes 15 16 ∧
      r.checksum = byteAt d.bytes 101 ∧ r.endMarker = byteAt d.bytes 102) ∧
  (∀ (s s' : State) (t : Nat) (b b' : List Byte), s.Inv → s'.Inv → s.config = s'.config →
    b.length = 103 → b'.length = 103 →
    (∀ i < 103, ¬ (2 ≤ i ∧ i ≤ 3) ∧ ¬ (4 ≤ i ∧ i ≤ 7) ∧ ¬ (8 ≤ i ∧ i ≤ 11) ∧ ¬ (12 ≤ i ∧ i ≤ 12) ∧
      ¬ (13 ≤ i ∧ i ≤ 14) ∧ ¬ (15 ≤ i ∧ i ≤ 30) ∧ ¬ (101 ≤ i ∧ i ≤ 101) ∧
      ¬ (102 ≤ i ∧ i ≤ 102) → byteAt b i = byteAt b' i) →
    Memory.bytes? s.pending t = some b → Memory.bytes? s'.pending t = some b' →
    ∃ (u u' : State) (e : Event), exec (.process t) s = .next u ∧ exec (.process t) s' = .next u' ∧
      u.out = s.out ++ [e] ∧ u'.out = s'.out ++ [e])

/-- R213: the record carries the label only, so two raw frames that differ only in the status code and have the same label
have the same record; in particular any two Unknown codes. -/
def Obligations.RecordCannotTellUnknownCodesApart : Prop :=
  (∀ (r : RawFrame) (code : BitVec 16),
    (recordOf { r with status := code }).status = (recordOf r).status →
    recordOf { r with status := code } = recordOf r) ∧
  (∀ (r : RawFrame) (code code' : BitVec 16), statmap code = .unknown → statmap code' = .unknown →
    recordOf { r with status := code } = recordOf { r with status := code' })

/-- R71: the frame with these fields and any reserved contents, laid out in wire order, is 103 bytes long, and DECODE gives
back exactly these fields, every one at every value. -/
def Obligations.DecodeReadsBackAnEncodedFrame : Prop :=
  ∀ (r : RawFrame) (v : Reserved), r.wf → v.wf →
    (encodeFrame r v).length = 103 ∧
    ∀ (s : State) (t : Nat), s.cur = some ⟨t, encodeFrame r v⟩ → s.config.wireLen = 103 →
      s.config.payloadLen = r.len →
      ∃ u, exec .decode s = .next u ∧ u.rf = some r ∧ u.out = s.out ∧ u.cur = s.cur

/-- The other direction: a 103-byte frame is rebuilt from its fields and reserved contents, so no byte is dropped or read
twice (R52, R71). -/
def Obligations.EncodingTheFieldsRebuildsTheFrame : Prop :=
  ∀ b : List Byte, b.length = 103 → encodeFrame (frameOf b) (reservedOf b) = b

/-- R25 (decision D9), over every operation from a state between steps: OUT is left alone, or emptied by RESET, or
extended by one event by PROCESS. -/
def Obligations.OnlyProcessAppendsAndOnlyResetClearsOut : Prop :=
  ∀ (i : Instr) (s t : State), s.Quiet → exec i s = .next t →
    t.out = s.out ∨ (i = .reset ∧ t.out = []) ∨
      (∃ tag e, i = .process tag ∧ e.tag = tag ∧ t.out = s.out ++ [e])

/-- R27 and R58: over every operation in every state, an entry found afterwards was there before with the same bytes, or
is the one DELIVER has just added; and an operation other than RESET and PROCESS of that tag removes nothing. -/
def Obligations.PendingBytesAreNeverChanged : Prop :=
  ∀ (i : Instr) (s t : State), exec i s = .next t →
    (∀ u b, Memory.bytes? t.pending u = some b →
      Memory.bytes? s.pending u = some b ∨ (i = .deliver b ∧ u = s.nextTag)) ∧
    (i ≠ .reset → ∀ u b, i ≠ .process u → Memory.bytes? s.pending u = some b →
      Memory.bytes? t.pending u = some b)

/-- R21 and R31: no step writes CONFIG. -/
def Obligations.ConfigurationNeverChanges : Prop :=
  (∀ (i : Instr) (s t : State), exec i s = .next t → t.config = s.config) ∧
  (∀ s t : State, step s = .next t → t.config = s.config)

/-- R23 and R28: outside a PROCESS step there is no entry, RF or REC to work on, so every operation of the three units
but SKIP is refused (log entry 3). A SKIP works on nothing and completes everywhere (NoneAndSkipsChangeNothing). -/
def Obligations.StagesRunOnlyInsideAProcessStep : Prop :=
  ∀ s : State, s.cur = none →
    ∀ i ∈ [Instr.accept, .extractStart, .extractLen, .extractCtrl, .extractId1, .extractId2,
      .extractCmd, .extractPtype, .extractSerial, .extractTemp, .extractVdc1, .extractVdc2,
      .extractAdc1, .extractAdc2, .extractAac, .extractVac, .extractFac, .extractPnow,
      .extractYday, .extractToday, .extractTotal, .extractStatus, .extractMonth,
      .extractLastMonth, .extractChecksum, .extractEnd, .lenchk, .decode, .convTemp,
      .convVdc1, .convVdc2, .convAdc1, .convAdc2, .convAac, .convVac, .convFac, .convYday,
      .convToday, .convTotal, .convPnow, .convMonth, .convLastMonth, .convert, .statusOff,
      .statusReady, .statusGenerating, .statusNogrid, .statusUnknown, .status],
      exec i s = .refused .noDelivery

/-- R121, R156 and R186: without RF (ACCEPT has not passed) nothing reads it, and without REC (LENCHK has not passed)
there is no conversion: "the caller must not proceed to conversion" (log entries 2 and 3). -/
def Obligations.StagesWaitForTheStageTheyNeed : Prop :=
  (∀ (s : State) (d : Delivery), s.cur = some d → s.rf = none →
    ∀ i ∈ [Instr.extractStart, .extractLen, .extractCtrl, .extractId1, .extractId2, .extractCmd,
      .extractPtype, .extractSerial, .extractTemp, .extractVdc1, .extractVdc2, .extractAdc1,
      .extractAdc2, .extractAac, .extractVac, .extractFac, .extractPnow, .extractYday,
      .extractToday, .extractTotal, .extractStatus, .extractMonth, .extractLastMonth,
      .extractChecksum, .extractEnd, .lenchk, .convTemp, .convVdc1, .convVdc2, .convAdc1,
      .convAdc2, .convAac, .convVac, .convFac, .convYday, .convToday, .convTotal, .convPnow,
      .convMonth, .convLastMonth, .convert, .statusOff, .statusReady, .statusGenerating,
      .statusNogrid, .statusUnknown, .status],
      exec i s = .refused .noFrame) ∧
  (∀ (s : State) (d : Delivery) (r : RawFrame), s.cur = some d → s.rf = some r → s.rc = none →
    ∀ i ∈ [Instr.convTemp, .convVdc1, .convVdc2, .convAdc1, .convAdc2, .convAac, .convVac,
      .convFac, .convYday, .convToday, .convTotal, .convPnow, .convMonth, .convLastMonth,
      .convert, .statusOff, .statusReady, .statusGenerating, .statusNogrid, .statusUnknown,
      .status],
      exec i s = .refused .noRecord)

/-- The invariant of the states between steps (R27, R31, R230, R237) is kept by every step, from every state that meets it. -/
def Obligations.StepKeepsTheInvariant : Prop :=
  ∀ s t : State, s.Inv → step s = .next t → t.Inv

/-- R234, R237, R238, R239: once the program is empty, as many steps as entries are pending end the run, in whatever order the
engine chooses, with exactly one event for each pending delivery and nothing else in OUT changed.
That the idle step is the engine's is log entry 6. -/
def Obligations.IdleRunProcessesEveryPendingDelivery : Prop :=
  ∀ s : State, s.Inv → s.program = [] →
    ∃ (t : State) (evs : List Event), core.run s.pending.length s = .next t ∧ t.Done ∧
      t.out = s.out ++ evs ∧ evs.Perm (s.pending.map (resultEvent s.config)) ∧
      t.config = s.config ∧ t.nextTag = s.nextTag

/-- R234 and R235: two pending deliveries processed in either order give the same two events, in the order processed, and
the same state otherwise. -/
def Obligations.ProcessOrderOnlyPermutesTheEvents : Prop :=
  ∀ (s : State) (t u : Nat) (b b' : List Byte), s.Inv → t ≠ u →
    Memory.bytes? s.pending t = some b → Memory.bytes? s.pending u = some b' →
    ∃ (s₁ s₂ v : State) (e e' : Event),
      exec (.process t) s = .next s₁ ∧ exec (.process u) s₁ = .next { v with out := s.out ++ [e, e'] } ∧
      exec (.process u) s = .next s₂ ∧ exec (.process t) s₂ = .next { v with out := s.out ++ [e', e] } ∧
      e.tag = t ∧ e'.tag = u

/-- R230: between steps the step function takes only steps of the relation (DELIVER, RESET, PROCESS, or NONE), and every
step of the relation is taken when it is presented. A SKIP presented on its own is the step NONE (log entry 3); the
program that presents is log entry 5, the relation as a Lean definition log entry 16. -/
def Obligations.StepIsTheStepRelation : Prop :=
  (∀ s t : State, s.Inv → step s = .next t → s.StepsTo t) ∧
  (∀ (i : Instr) (s t : State), IsStep i → s.Takes i t →
    step { s with program := encode i :: t.program, choice := t.choice } = .next t)

/-- R237 and R238, over unending runs in which the host may deliver, reset and pause for ever: in every fair run each
pending delivery is at some later moment either discarded by a RESET or processed, and then its result is appended to
OUT. The run and its fairness as Lean definitions are log entry 16. -/
def Obligations.AdmittedRunsFinishEveryDelivery : Prop :=
  ∀ r : Nat → State, Admitted r → ∀ n, ∀ d ∈ (r n).pending,
    ∃ m, n ≤ m ∧ d ∈ (r m).pending ∧
      ((r m).Takes .reset (r (m + 1)) ∨
        ((r m).Takes (.process d.tag) (r (m + 1)) ∧
          (r (m + 1)).out = (r m).out ++ [resultEvent (r 0).config d]))

/-- R238 asks nothing impossible: from every state between steps, and so after any finite part of a run, an admitted run
goes on (log entry 16). -/
def Obligations.EveryRunCanBeContinuedFairly : Prop :=
  ∀ s : State, s.Inv → ∃ r : Nat → State, r 0 = s ∧ Admitted r
end

