-- ==== Sys2Proof/Laws/State.lean ====
section
/-! SUPPORT. One lemma for each field of State under each named update, all true by rfl. -/

namespace Sys2Proof.Machine

variable (s : State) (t : Nat) (bytes : List Byte) (e : Event) (d : Delivery) (info : ErrorInfo)

@[simp] theorem State.discard_config : s.discard.config = s.config := rfl
@[simp] theorem State.discard_pending : s.discard.pending = s.pending := rfl
@[simp] theorem State.discard_nextTag : s.discard.nextTag = s.nextTag := rfl
@[simp] theorem State.discard_out : s.discard.out = s.out := rfl
@[simp] theorem State.discard_cur : s.discard.cur = none := rfl
@[simp] theorem State.discard_rf : s.discard.rf = none := rfl
@[simp] theorem State.discard_rc : s.discard.rc = none := rfl
@[simp] theorem State.discard_program : s.discard.program = s.program := rfl
@[simp] theorem State.discard_choice : s.discard.choice = s.choice := rfl

@[simp] theorem State.take_config : (s.take t bytes).config = s.config := rfl
@[simp] theorem State.take_pending : (s.take t bytes).pending = Memory.remove s.pending t := rfl
@[simp] theorem State.take_nextTag : (s.take t bytes).nextTag = s.nextTag := rfl
@[simp] theorem State.take_out : (s.take t bytes).out = s.out := rfl
@[simp] theorem State.take_cur : (s.take t bytes).cur = some ⟨t, bytes⟩ := rfl
@[simp] theorem State.take_rf : (s.take t bytes).rf = none := rfl
@[simp] theorem State.take_rc : (s.take t bytes).rc = none := rfl
@[simp] theorem State.take_program : (s.take t bytes).program = s.program := rfl
@[simp] theorem State.take_choice : (s.take t bytes).choice = s.choice := rfl

@[simp] theorem State.emit_config : (s.emit e).config = s.config := rfl
@[simp] theorem State.emit_pending : (s.emit e).pending = s.pending := rfl
@[simp] theorem State.emit_nextTag : (s.emit e).nextTag = s.nextTag := rfl
@[simp] theorem State.emit_out : (s.emit e).out = s.out ++ [e] := rfl
@[simp] theorem State.emit_cur : (s.emit e).cur = s.cur := rfl
@[simp] theorem State.emit_rf : (s.emit e).rf = s.rf := rfl
@[simp] theorem State.emit_rc : (s.emit e).rc = s.rc := rfl
@[simp] theorem State.emit_program : (s.emit e).program = s.program := rfl
@[simp] theorem State.emit_choice : (s.emit e).choice = s.choice := rfl

@[simp] theorem State.raise_config : (s.raise d info).config = s.config := rfl
@[simp] theorem State.raise_pending : (s.raise d info).pending = s.pending := rfl
@[simp] theorem State.raise_nextTag : (s.raise d info).nextTag = s.nextTag := rfl
@[simp] theorem State.raise_out : (s.raise d info).out = s.out ++ [.error d.tag info] := rfl
@[simp] theorem State.raise_cur : (s.raise d info).cur = none := rfl
@[simp] theorem State.raise_rf : (s.raise d info).rf = none := rfl
@[simp] theorem State.raise_rc : (s.raise d info).rc = none := rfl
@[simp] theorem State.raise_program : (s.raise d info).program = s.program := rfl
@[simp] theorem State.raise_choice : (s.raise d info).choice = s.choice := rfl

end Sys2Proof.Machine
end

