-- ==== Sys2Proof/Laws/Memory.lean ====
section
/-! SUPPORT. PENDING: what a lookup gives after an insertion or a removal, and that both keep the
canonical form (R27). -/

namespace Sys2Proof.Machine

@[simp] theorem Memory.bytes?_nil (u : Nat) : Memory.bytes? [] u = none := rfl

theorem Memory.bytes?_cons (d : Delivery) (m : Memory) (u : Nat) :
    Memory.bytes? (d :: m) u = if d.tag = u then some d.bytes else Memory.bytes? m u := rfl

/-- A lookup after `∪`: the old entry if there is one, else the new one at its tag. -/
theorem Memory.bytes?_insert (m : Memory) (d : Delivery) (u : Nat) :
    Memory.bytes? (Memory.insert m d) u =
      (Memory.bytes? m u).or (if d.tag = u then some d.bytes else none) := by
  unfold Memory.insert
  induction m with
  | nil => simp [Memory.bytes?]
  | cons x m ih =>
    rw [List.cons_append, Memory.bytes?_cons, Memory.bytes?_cons, ih]
    by_cases h : x.tag = u <;> simp [h]

/-- A lookup after `\`: nothing at the removed tag, every other tag as before. -/
theorem Memory.bytes?_remove (m : Memory) (t u : Nat) :
    Memory.bytes? (Memory.remove m t) u = if u = t then none else Memory.bytes? m u := by
  unfold Memory.remove
  induction m with
  | nil => simp
  | cons x m ih =>
    rw [List.filter_cons]
    by_cases hx : x.tag = t
    · rw [if_neg (by simp [hx]), ih, Memory.bytes?_cons]
      by_cases hu : u = t
      · simp [hu]
      · have : ¬ x.tag = u := fun h => hu (h.symm.trans hx)
        simp [hu, this]
    · rw [if_pos (by simp [hx]), Memory.bytes?_cons, Memory.bytes?_cons, ih]
      by_cases hu : x.tag = u
      · have : ¬ u = t := fun h => hx (hu.trans h)
        simp [hu, this]
      · simp [hu]

/-- A lookup finds exactly what is listed, in canonical form. -/
theorem Memory.bytes?_eq_some_iff {m : Memory} (h : Memory.wf m) (t : Nat) (b : List Byte) :
    Memory.bytes? m t = some b ↔ (⟨t, b⟩ : Delivery) ∈ m := by
  induction m with
  | nil => simp
  | cons x m ih =>
    obtain ⟨hx, hm⟩ := List.pairwise_cons.mp h
    rw [Memory.bytes?_cons, List.mem_cons]
    by_cases ht : x.tag = t
    · have hn : (⟨t, b⟩ : Delivery) ∉ m := fun hin => by
        have h' := hx _ hin
        rw [ht] at h'
        exact Nat.lt_irrefl _ h'
      obtain ⟨xt, xb⟩ := x
      simp only at ht
      subst ht
      simp [hn, eq_comm]
    · have hne : (⟨t, b⟩ : Delivery) ≠ x := fun e => ht (by rw [← e])
      simp [ht, hne, ih hm]

theorem Memory.wf_nil : Memory.wf [] := List.Pairwise.nil

/-- Inserting a tag above every listed one keeps the canonical form. -/
theorem Memory.wf_insert {m : Memory} {d : Delivery} (h : Memory.wf m)
    (hd : ∀ x ∈ m, x.tag < d.tag) : Memory.wf (Memory.insert m d) := by
  refine List.pairwise_append.mpr ⟨h, List.pairwise_singleton _ _, ?_⟩
  intro a ha b hb
  rw [List.mem_singleton] at hb
  exact hb ▸ hd a ha

/-- Removing keeps the canonical form. -/
theorem Memory.wf_remove {m : Memory} (h : Memory.wf m) (t : Nat) : Memory.wf (Memory.remove m t) :=
  List.Pairwise.filter _ h

/-- Inserting an entry of at most RX_MAX bytes keeps the bound. -/
theorem Memory.bounded_insert {m : Memory} {d : Delivery} (h : Memory.bounded m)
    (hd : d.bytes.length ≤ Config.rxMax) : Memory.bounded (Memory.insert m d) := by
  intro x hx
  rcases List.mem_append.mp hx with hm | hs
  · exact h x hm
  · rw [List.mem_singleton] at hs
    exact hs ▸ hd

/-- Removing keeps the bound. -/
theorem Memory.bounded_remove {m : Memory} (h : Memory.bounded m) (t : Nat) :
    Memory.bounded (Memory.remove m t) := fun x hx => h x (List.mem_of_mem_filter hx)

/-- The tags after a removal. -/
theorem Memory.tags_remove (m : Memory) (t : Nat) :
    Memory.tags (Memory.remove m t) = (Memory.tags m).filter (fun u => u != t) := by
  simp [Memory.tags, Memory.remove, List.filter_map, Function.comp_def]

theorem Memory.tags_insert (m : Memory) (d : Delivery) :
    Memory.tags (Memory.insert m d) = Memory.tags m ++ [d.tag] := by
  simp [Memory.tags, Memory.insert]

/-- The tags of a canonical PENDING have no repeats. -/
theorem Memory.tags_nodup {m : Memory} (h : Memory.wf m) : (Memory.tags m).Nodup := by
  refine List.pairwise_map.mpr (List.Pairwise.imp ?_ h)
  exact fun hab => Nat.ne_of_lt hab

theorem reset_memory_wf : Memory.wf State.reset.pending := Memory.wf_nil

end Sys2Proof.Machine
end

