-- ==== Sys2Proof/Laws/Numbers.lean ====
section
/-! SUPPORT. Reading integers from bytes (R8), the integer square root (R8) and the rounded quotient. -/

namespace Sys2Proof.Machine

@[simp] theorem memRead_zero (b : List Byte) (o : Nat) : memRead b o 0 = 0 := rfl

theorem memRead_succ (b : List Byte) (o n : Nat) :
    memRead b o (n + 1) = memRead b o n * 256 + (byteAt b (o + n)).toNat := rfl

/-- MemRead(o, n) is a u(8n). -/
theorem memRead_lt (b : List Byte) (o n : Nat) : memRead b o n < 256 ^ n := by
  induction n with
  | zero => simp
  | succ n ih =>
    have := (byteAt b (o + n)).isLt
    rw [memRead_succ, Nat.pow_succ]
    omega

/-- Reading a longer field is reading its upper part, then its lower part. -/
theorem memRead_add (b : List Byte) (o m n : Nat) :
    memRead b o (m + n) = memRead b o m * 256 ^ n + memRead b (o + m) n := by
  induction n with
  | zero => simp
  | succ n ih =>
    rw [← Nat.add_assoc, memRead_succ, memRead_succ, ih, Nat.pow_succ, Nat.add_assoc o m n]
    ring

/-- A read depends only on the bytes it covers. -/
theorem memRead_congr {b b' : List Byte} {o n : Nat}
    (h : ∀ i, o ≤ i → i < o + n → byteAt b i = byteAt b' i) : memRead b o n = memRead b' o n := by
  induction n with
  | zero => rfl
  | succ n ih =>
    rw [memRead_succ, memRead_succ, ih fun i h₁ h₂ => h i h₁ (by omega),
      h (o + n) (by omega) (by omega)]

/-- The digit loop keeps `s² ≤ n < (s + 2^k)²`. -/
theorem isqrtBits_spec (n k s : Nat) (hs : s * s ≤ n) (hn : n < (s + 2 ^ k) * (s + 2 ^ k)) :
    isqrtBits n k s * isqrtBits n k s ≤ n ∧
      n < (isqrtBits n k s + 1) * (isqrtBits n k s + 1) := by
  induction k generalizing s with
  | zero => exact ⟨hs, by simpa [isqrtBits] using hn⟩
  | succ k ih =>
    unfold isqrtBits
    split
    · next h =>
      refine ih _ h ?_
      rw [Nat.add_assoc, ← Nat.two_mul, ← Nat.pow_succ']
      exact hn
    · next h => exact ih _ hs (Nat.lt_of_not_le h)

/-- `isqrt(n)` is the largest natural whose square does not exceed `n` (R8). -/
theorem isqrt_spec (n : Nat) : isqrt n * isqrt n ≤ n ∧ n < (isqrt n + 1) * (isqrt n + 1) := by
  refine isqrtBits_spec n _ 0 (Nat.zero_le _) ?_
  have h₁ : n < 2 ^ (n.log2 + 1) := Nat.lt_log2_self
  have h₂ : 2 ^ (n.log2 + 1) ≤ 2 ^ ((n.log2 / 2 + 1) + (n.log2 / 2 + 1)) :=
    Nat.pow_le_pow_right (by decide) (by omega)
  rw [Nat.zero_add, ← Nat.pow_add]
  exact Nat.lt_of_lt_of_le h₁ h₂

/-- The rounded quotient lies within half a divisor, and at exactly half it is even. -/
theorem roundHalfEven_spec (n d : Nat) (hd : 0 < d) :
    2 * n ≤ 2 * roundHalfEven n d * d + d ∧ 2 * roundHalfEven n d * d ≤ 2 * n + d ∧
      ((2 * n = 2 * roundHalfEven n d * d + d ∨ 2 * roundHalfEven n d * d = 2 * n + d) →
        roundHalfEven n d % 2 = 0) := by
  have hdm : d * (n / d) + n % d = n := Nat.div_add_mod n d
  have hlt : n % d < d := Nat.mod_lt n hd
  have e₀ : 2 * (n / d) * d = 2 * (d * (n / d)) := by ring
  have e₁ : 2 * (n / d + 1) * d = 2 * (d * (n / d)) + 2 * d := by ring
  unfold roundHalfEven
  split
  · rw [e₀]
    omega
  · split
    · rw [e₁]
      omega
    · rcases Nat.mod_two_eq_zero_or_one (n / d) with h | h
      · rw [h, Nat.add_zero, e₀]
        omega
      · rw [h, e₁]
        omega

/-- The quotient that RNE64 rounds has exactly 53 bits before the point (R170, R92). -/
theorem rne64_quotient_bounds (n d : Nat) (hn : 0 < n) (hd : 0 < d) :
    let u := d.log2 + 53
    let k := (n * 2 ^ u / d).log2 - 52
    2 ^ 52 * (d * 2 ^ k) ≤ n * 2 ^ u ∧ n * 2 ^ u < 2 ^ 53 * (d * 2 ^ k) := by
  intro u k
  have hdu : 2 ^ 52 * d ≤ n * 2 ^ u := by
    have h₁ : d < 2 ^ (d.log2 + 1) := Nat.lt_log2_self
    have h₂ : 2 ^ u = 2 ^ 52 * 2 ^ (d.log2 + 1) := by
      rw [← Nat.pow_add]
      congr 1
      omega
    calc 2 ^ 52 * d ≤ 2 ^ u := by
          rw [h₂]
          exact Nat.mul_le_mul_left _ (Nat.le_of_lt h₁)
      _ ≤ n * 2 ^ u := Nat.le_mul_of_pos_left _ hn
  have hq : 2 ^ 52 ≤ n * 2 ^ u / d := (Nat.le_div_iff_mul_le hd).mpr hdu
  have hq₀ : n * 2 ^ u / d ≠ 0 := Nat.ne_of_gt (Nat.lt_of_lt_of_le (by decide) hq)
  have hk : (n * 2 ^ u / d).log2 = k + 52 := by
    have := (Nat.le_log2 hq₀).mpr hq
    omega
  have hlo : 2 ^ (k + 52) ≤ n * 2 ^ u / d := hk ▸ Nat.log2_self_le hq₀
  have hhi : n * 2 ^ u / d < 2 ^ (k + 53) := by
    have := Nat.lt_log2_self (n := n * 2 ^ u / d)
    rwa [hk] at this
  have e₁ : 2 ^ 52 * (d * 2 ^ k) = 2 ^ (k + 52) * d := by
    rw [Nat.pow_add, Nat.mul_left_comm, Nat.mul_comm d, Nat.mul_comm (2 ^ k)]
  have e₂ : 2 ^ 53 * (d * 2 ^ k) = 2 ^ (k + 53) * d := by
    rw [Nat.pow_add, Nat.mul_left_comm, Nat.mul_comm d, Nat.mul_comm (2 ^ k)]
  rw [e₁, e₂]
  exact ⟨(Nat.le_div_iff_mul_le hd).mp hlo, (Nat.div_lt_iff_lt_mul hd).mp hhi⟩

/-- The rounded quotient is at most one above the whole quotient. -/
theorem roundHalfEven_le (n d : Nat) : roundHalfEven n d ≤ n / d + 1 := by
  unfold roundHalfEven
  have := Nat.mod_lt (n / d) (show 0 < 2 by decide)
  split
  · omega
  · split <;> omega

theorem atMost_of_le {top v : Nat} (h : v ≤ top) : atMost top v = v := by
  unfold atMost
  omega

theorem atMost_le (top v : Nat) : atMost top v ≤ top := Nat.sub_le _ _

/-- SCALE of a u32 by a divisor below 2^32, without the cases of the format's edges: no subnormal and no
infinity arises (R93). -/
theorem scale_eq {raw d : Nat} (hr : 0 < raw) (hr' : raw < 2 ^ 32) (hd : 0 < d) (hd' : d < 2 ^ 32)
    {u k : Nat} (hu : u = d.log2 + 53) (hk : k = (raw * 2 ^ u / d).log2 - 52) :
    scale raw d =
      BitVec.ofNat 64 ((1074 + k - u) * 2 ^ 52 + roundHalfEven (raw * 2 ^ u) (d * 2 ^ k)) := by
  have hb := rne64_quotient_bounds raw d hr hd
  simp only [← hu, ← hk] at hb
  have hu' : u < 85 := by
    have := (Nat.log2_lt (Nat.ne_of_gt hd)).mpr hd'
    omega
  have hpos : 0 < d * 2 ^ k := Nat.mul_pos hd (Nat.two_pow_pos k)
  have hku : k ≤ u := by
    by_contra hlt
    have h₁ : 2 ^ (u + 1) ≤ 2 ^ k := Nat.pow_le_pow_right (by decide) (by omega)
    have h₂ : 2 ^ 52 * 2 ^ (u + 1) ≤ 2 ^ 52 * (d * 2 ^ k) :=
      Nat.mul_le_mul_left _ (Nat.le_trans h₁ (Nat.le_mul_of_pos_left _ hd))
    have h₃ : raw * 2 ^ u < 2 ^ 32 * 2 ^ u := Nat.mul_lt_mul_of_pos_right hr' (Nat.two_pow_pos u)
    have h₄ : 2 ^ 32 * 2 ^ u ≤ 2 ^ 52 * 2 ^ (u + 1) :=
      Nat.mul_le_mul (by decide) (Nat.pow_le_pow_right (by decide) (Nat.le_succ u))
    exact Nat.lt_irrefl _ (Nat.lt_of_lt_of_le h₃ (Nat.le_trans h₄ (Nat.le_trans h₂ hb.1)))
  have hlt : raw * 2 ^ u / (d * 2 ^ k) < 2 ^ 53 := (Nat.div_lt_iff_lt_mul hpos).mpr hb.2
  have hle := roundHalfEven_le (raw * 2 ^ u) (d * 2 ^ k)
  have hcap : (1074 + k - u) * 2 ^ 52 + roundHalfEven (raw * 2 ^ u) (d * 2 ^ k) ≤
      FpFormat.binary64.infinity := by
    have h₁ : (1074 + k - u) * 2 ^ 52 ≤ 1074 * 2 ^ 52 := Nat.mul_le_mul_right _ (by omega)
    have h₂ : FpFormat.binary64.infinity = 1074 * 2 ^ 52 + 973 * 2 ^ 52 := by decide
    rw [h₂]
    exact Nat.add_le_add h₁ (Nat.le_trans hle (Nat.le_trans (Nat.succ_le_of_lt hlt) (by decide)))
  have hz : u - 1074 = 0 := by omega
  have hrne : scale raw d = BitVec.ofNat 64 (atMost FpFormat.binary64.infinity
      ((1074 + max k (u - 1074) - u) * 2 ^ 52 + roundHalfEven (raw * 2 ^ u) (d * 2 ^ max k (u - 1074)))) := by
    subst hk hu
    exact if_neg (Nat.ne_of_gt hr)
  rw [hrne, hz, Nat.max_zero, atMost_of_le hcap]

end Sys2Proof.Machine
end

