-- ==== Sys2Proof/Laws/PerInstr.lean ====
section
/-! SUPPORT. Statements made for each operation: decoding what the encoder presents gives the operation
back. -/

namespace Sys2Proof.Laws

/-- A well-formed operation is read back from its own encoding. -/
def RoundTrip.Statement (i : Instr) : Prop := i.wf = true → decode (encode i) = .ok i

theorem RoundTrip.hostNone : RoundTrip.Statement .hostNone := fun _ => rfl
theorem RoundTrip.deliver (bytes : List Byte) : RoundTrip.Statement (.deliver bytes) := fun _ => rfl
theorem RoundTrip.reset : RoundTrip.Statement .reset := fun _ => rfl
theorem RoundTrip.reservedHostop3 : RoundTrip.Statement .reservedHostop3 := fun _ => rfl
theorem RoundTrip.process (tag : Nat) : RoundTrip.Statement (.process tag) := fun _ => rfl
theorem RoundTrip.accept : RoundTrip.Statement .accept := fun _ => rfl
theorem RoundTrip.extractStart : RoundTrip.Statement .extractStart := fun _ => rfl
theorem RoundTrip.extractLen : RoundTrip.Statement .extractLen := fun _ => rfl
theorem RoundTrip.extractCtrl : RoundTrip.Statement .extractCtrl := fun _ => rfl
theorem RoundTrip.extractId1 : RoundTrip.Statement .extractId1 := fun _ => rfl
theorem RoundTrip.extractId2 : RoundTrip.Statement .extractId2 := fun _ => rfl
theorem RoundTrip.extractCmd : RoundTrip.Statement .extractCmd := fun _ => rfl
theorem RoundTrip.extractPtype : RoundTrip.Statement .extractPtype := fun _ => rfl
theorem RoundTrip.extractSerial : RoundTrip.Statement .extractSerial := fun _ => rfl
theorem RoundTrip.extractTemp : RoundTrip.Statement .extractTemp := fun _ => rfl
theorem RoundTrip.extractVdc1 : RoundTrip.Statement .extractVdc1 := fun _ => rfl
theorem RoundTrip.extractVdc2 : RoundTrip.Statement .extractVdc2 := fun _ => rfl
theorem RoundTrip.skipRsv0 : RoundTrip.Statement .skipRsv0 := fun _ => rfl
theorem RoundTrip.extractAdc1 : RoundTrip.Statement .extractAdc1 := fun _ => rfl
theorem RoundTrip.extractAdc2 : RoundTrip.Statement .extractAdc2 := fun _ => rfl
theorem RoundTrip.skipRsv1 : RoundTrip.Statement .skipRsv1 := fun _ => rfl
theorem RoundTrip.extractAac : RoundTrip.Statement .extractAac := fun _ => rfl
theorem RoundTrip.skipRsv2 : RoundTrip.Statement .skipRsv2 := fun _ => rfl
theorem RoundTrip.extractVac : RoundTrip.Statement .extractVac := fun _ => rfl
theorem RoundTrip.skipRsv3 : RoundTrip.Statement .skipRsv3 := fun _ => rfl
theorem RoundTrip.extractFac : RoundTrip.Statement .extractFac := fun _ => rfl
theorem RoundTrip.extractPnow : RoundTrip.Statement .extractPnow := fun _ => rfl
theorem RoundTrip.skipRsv4 : RoundTrip.Statement .skipRsv4 := fun _ => rfl
theorem RoundTrip.extractYday : RoundTrip.Statement .extractYday := fun _ => rfl
theorem RoundTrip.extractToday : RoundTrip.Statement .extractToday := fun _ => rfl
theorem RoundTrip.extractTotal : RoundTrip.Statement .extractTotal := fun _ => rfl
theorem RoundTrip.skipRsv5 : RoundTrip.Statement .skipRsv5 := fun _ => rfl
theorem RoundTrip.extractStatus : RoundTrip.Statement .extractStatus := fun _ => rfl
theorem RoundTrip.skipRsv6 : RoundTrip.Statement .skipRsv6 := fun _ => rfl
theorem RoundTrip.extractMonth : RoundTrip.Statement .extractMonth := fun _ => rfl
theorem RoundTrip.skipRsv7 : RoundTrip.Statement .skipRsv7 := fun _ => rfl
theorem RoundTrip.extractLastMonth : RoundTrip.Statement .extractLastMonth := fun _ => rfl
theorem RoundTrip.skipRsv8 : RoundTrip.Statement .skipRsv8 := fun _ => rfl
theorem RoundTrip.extractChecksum : RoundTrip.Statement .extractChecksum := fun _ => rfl
theorem RoundTrip.extractEnd : RoundTrip.Statement .extractEnd := fun _ => rfl
theorem RoundTrip.lenchk : RoundTrip.Statement .lenchk := fun _ => rfl
theorem RoundTrip.decode : RoundTrip.Statement .decode := fun _ => rfl
theorem RoundTrip.convTemp : RoundTrip.Statement .convTemp := fun _ => rfl
theorem RoundTrip.convVdc1 : RoundTrip.Statement .convVdc1 := fun _ => rfl
theorem RoundTrip.convVdc2 : RoundTrip.Statement .convVdc2 := fun _ => rfl
theorem RoundTrip.convAdc1 : RoundTrip.Statement .convAdc1 := fun _ => rfl
theorem RoundTrip.convAdc2 : RoundTrip.Statement .convAdc2 := fun _ => rfl
theorem RoundTrip.convAac : RoundTrip.Statement .convAac := fun _ => rfl
theorem RoundTrip.convVac : RoundTrip.Statement .convVac := fun _ => rfl
theorem RoundTrip.convFac : RoundTrip.Statement .convFac := fun _ => rfl
theorem RoundTrip.convYday : RoundTrip.Statement .convYday := fun _ => rfl
theorem RoundTrip.convToday : RoundTrip.Statement .convToday := fun _ => rfl
theorem RoundTrip.convTotal : RoundTrip.Statement .convTotal := fun _ => rfl
theorem RoundTrip.convPnow : RoundTrip.Statement .convPnow := fun _ => rfl
theorem RoundTrip.convMonth : RoundTrip.Statement .convMonth := fun _ => rfl
theorem RoundTrip.convLastMonth : RoundTrip.Statement .convLastMonth := fun _ => rfl
theorem RoundTrip.convert : RoundTrip.Statement .convert := fun _ => rfl
theorem RoundTrip.statusOff : RoundTrip.Statement .statusOff := fun _ => rfl
theorem RoundTrip.statusReady : RoundTrip.Statement .statusReady := fun _ => rfl
theorem RoundTrip.statusGenerating : RoundTrip.Statement .statusGenerating := fun _ => rfl
theorem RoundTrip.statusNogrid : RoundTrip.Statement .statusNogrid := fun _ => rfl
theorem RoundTrip.statusUnknown : RoundTrip.Statement .statusUnknown := fun _ => rfl
theorem RoundTrip.status : RoundTrip.Statement .status := fun _ => rfl

end Sys2Proof.Laws
end

