-- ==== Sys2Proof/Laws/Stages.lean ====
section
/-! SUPPORT. What the shared operations over RF and REC answer, in every case, and how a list of stages
runs. -/

namespace Sys2Proof.Machine

/-- An EXTRACT on an accepted frame of 103 bytes completes. -/
theorem onFrame_eq_next {s : State} {d : Delivery} {r : RawFrame} (hc : s.cur = some d)
    (hr : s.rf = some r) (hl : d.bytes.length = 103) (f : List Byte → RawFrame → RawFrame) :
    onFrame s f = .next { s with rf := some (f d.bytes r) } := by
  simp [onFrame, hc, hr, frameSize, hl]

/-- All that an EXTRACT can do when it answers a next state. -/
theorem onFrame_cases {s s' : State} {f : List Byte → RawFrame → RawFrame}
    (h : onFrame s f = .next s') :
    ∃ d r, s.cur = some d ∧ s.rf = some r ∧ d.bytes.length = 103 ∧
      s' = { s with rf := some (f d.bytes r) } := by
  unfold onFrame at h
  split at h
  · next d r hc hr =>
    split at h
    · next hl =>
      cases h
      exact ⟨d, r, hc, hr, hl, rfl⟩
    · cases h
  · cases h
  · cases h

/-- A converter or status operation completes when RF and REC exist. -/
theorem onRecord_eq_next {s : State} {d : Delivery} {r : RawFrame} {c : InverterRecord}
    (hc : s.cur = some d) (hr : s.rf = some r) (hrc : s.rc = some c)
    (f : RawFrame → InverterRecord → InverterRecord) :
    onRecord s f = .next { s with rc := some (f r c) } := by
  simp [onRecord, hc, hr, hrc]

/-- All that a converter or status operation can do when it answers a next state. -/
theorem onRecord_cases {s s' : State} {f : RawFrame → InverterRecord → InverterRecord}
    (h : onRecord s f = .next s') :
    ∃ d r c, s.cur = some d ∧ s.rf = some r ∧ s.rc = some c ∧
      s' = { s with rc := some (f r c) } := by
  unfold onRecord at h
  split at h
  · next d r c hc hr hrc =>
    cases h
    exact ⟨d, r, c, hc, hr, hrc, rfl⟩
  · cases h
  · cases h
  · cases h

/-- All that the last line of PROCESS can do when it answers a next state. -/
theorem emitRecord_cases {s s' : State} (h : emitRecord s = .next s') :
    ∃ d c, s.cur = some d ∧ s.rc = some c ∧ s' = (s.emit (.record d.tag c)).discard := by
  unfold emitRecord at h
  split at h
  · next d c hc hrc =>
    cases h
    exact ⟨d, c, hc, hrc, rfl⟩
  · cases h
  · cases h

/-- A stage that completes with the entry still in hand is followed by the rest. -/
theorem runStages_cons_of_cur {f : State → Result} {fs : List (State → Result)} {s s' : State}
    (h : f s = .next s') (hc : s'.cur.isSome = true) :
    runStages (f :: fs) s = runStages fs s' := by
  simp [runStages, h, hc]

/-- A stage that has given the entry up ends the run: the remaining stages are abandoned (R8). -/
theorem runStages_cons_of_raise {f : State → Result} {fs : List (State → Result)} {s s' : State}
    (h : f s = .next s') (hc : s'.cur = none) : runStages (f :: fs) s = .next s' := by
  simp [runStages, h, hc]

/-- A property that every stage keeps is kept by the whole list. -/
theorem runStages_keeps {P : State → Prop} {fs : List (State → Result)}
    (hf : ∀ f ∈ fs, ∀ s s', P s → f s = .next s' → P s') :
    ∀ s s', P s → runStages fs s = .next s' → P s' := by
  induction fs with
  | nil =>
    intro s s' hp h
    cases h
    exact hp
  | cons f fs ih =>
    intro s s' hp h
    unfold runStages at h
    split at h
    · next s₁ h₁ =>
      have hp₁ := hf f (List.mem_cons_self ..) s s₁ hp h₁
      split at h
      · exact ih (fun g hg => hf g (List.mem_cons_of_mem _ hg)) s₁ s' hp₁ h
      · cases h
        exact hp₁
    · next o ho => exact absurd h (ho s')

end Sys2Proof.Machine
end

