-- ==== Sys2Proof/Laws/Transactions.lean ====
section
/-! SUPPORT. What DELIVER and the step relation can do (R230, R231), and two runs: one in which the host
delivers for ever and that is admitted (R238), and one that starves an entry and is not. -/

namespace Sys2Proof.Machine

/-- DELIVER of at most RX_MAX bytes completes (R231). -/
theorem execDeliver_eq_next {bytes : List Byte} (h : bytes.length ≤ Config.rxMax) (s : State) :
    execDeliver bytes s = .next { s with
      pending := Memory.insert s.pending ⟨s.nextTag, bytes⟩, nextTag := s.nextTag + 1 } := if_pos h

/-- DELIVER of more than RX_MAX bytes is refused (log entry 8). -/
theorem execDeliver_over_rxMax {bytes : List Byte} (h : Config.rxMax < bytes.length) (s : State) :
    execDeliver bytes s = .refused .overRxMax := if_neg (Nat.not_le_of_lt h)

/-- All that DELIVER can do when it answers a next state. -/
theorem execDeliver_cases {bytes : List Byte} {s s' : State} (h : execDeliver bytes s = .next s') :
    bytes.length ≤ Config.rxMax ∧ s' = { s with
      pending := Memory.insert s.pending ⟨s.nextTag, bytes⟩, nextTag := s.nextTag + 1 } := by
  unfold execDeliver at h
  split at h
  · next hl =>
    cases h
    exact ⟨hl, rfl⟩
  · cases h

/-- NONE is a step that leaves the block as it is. -/
theorem State.stepsTo_self (s : State) : s.StepsTo s := ⟨.hostNone, .inl rfl, rfl⟩

/-- The alternating host before delivery `k`: every earlier delivery, of no bytes, has its error event. -/
def deliveredAll (k : Nat) : State :=
  { State.reset with
    nextTag := k
    out := (List.range k).map fun t => .error t (.wireLengthMismatch 0 []) }

/-- The alternating host after delivery `k`: that delivery is pending. -/
def oneLeft (k : Nat) : State := { deliveredAll k with pending := [⟨k, []⟩], nextTag := k + 1 }

/-- A host that delivers for ever, each delivery processed before the next. -/
def busyRun (n : Nat) : State := if n % 2 = 0 then deliveredAll (n / 2) else oneLeft (n / 2)

theorem busyRun_even (k : Nat) : busyRun (2 * k) = deliveredAll k := by
  unfold busyRun
  rw [if_pos (by omega), Nat.mul_div_cancel_left _ (by decide)]

theorem busyRun_odd (k : Nat) : busyRun (2 * k + 1) = oneLeft k := by
  unfold busyRun
  rw [if_neg (by omega), show (2 * k + 1) / 2 = k by omega]

theorem deliveredAll_delivers (k : Nat) : (deliveredAll k).StepsTo (oneLeft k) :=
  ⟨.deliver [], .inr (.inl ⟨_, rfl⟩), execDeliver_eq_next (Nat.zero_le _) _⟩

theorem oneLeft_processes (k : Nat) : (oneLeft k).StepsTo (deliveredAll (k + 1)) := by
  refine ⟨.process k, .inr (.inr (.inr ⟨k, rfl⟩)), ?_⟩
  simp [State.Takes, exec, execProcess, oneLeft, deliveredAll, State.reset, Memory.bytes?, Memory.remove,
    processStages, runStages, execDecode, execAccept, wireLenOk, Config.default, State.take, State.raise,
    State.emit, State.discard, List.range_succ]

/-- The host steps go on for ever and every delivery gets its result: the run is admitted (R238). -/
theorem busyRun_admitted : Admitted busyRun := by
  refine ⟨⟨by decide, fun n => ?_⟩, fun n t _ => ?_⟩
  · rcases Nat.mod_two_eq_zero_or_one n with h | h
    · obtain ⟨k, rfl⟩ : ∃ k, n = 2 * k := ⟨n / 2, by omega⟩
      rw [busyRun_even, busyRun_odd]
      exact deliveredAll_delivers k
    · obtain ⟨k, rfl⟩ : ∃ k, n = 2 * k + 1 := ⟨n / 2, by omega⟩
      rw [busyRun_odd, show 2 * k + 1 + 1 = 2 * (k + 1) by omega, busyRun_even]
      exact oneLeft_processes k
  · refine ⟨2 * n, by omega, ?_⟩
    rw [busyRun_even]
    simp [deliveredAll, State.reset, Memory.tags]

/-- A run that leaves a delivery pending for ever is a run of the step relation, and is not admitted (R238). -/
theorem starving_not_admitted :
    IsRun (fun _ => oneLeft 0) ∧ ¬ Admitted (fun _ => oneLeft 0) := by
  refine ⟨⟨by decide, fun _ => State.stepsTo_self _⟩, fun h => ?_⟩
  have h₀ : 0 ∈ Memory.tags (oneLeft 0).pending := by decide
  obtain ⟨_, _, hm⟩ := h.2 0 0 h₀
  exact hm h₀

end Sys2Proof.Machine
end

