-- ==== Sys2Proof/Tests/Slice0.lean ====
section
/-! SUPPORT. Tests. Every expected value is the spec's: the frames and vectors of 95_test_vectors.md, the
encodings of 30_encoding.md and the opcode table. The witnesses at the end show that the hypotheses of
each statement can be met. -/

namespace Sys2Proof.Tests

open Sys2Proof Sys2Proof.Machine

/-! ### Frame V (95_test_vectors.md section 0) -/

def frameV : List Byte :=
  [0x68, 0x59, 0x41, 0xB0, 0x12, 0x34, 0x56, 0x78, 0x9A, 0xBC, 0xDE, 0xF0, 0x81, 0x01, 0x02, 0x53] ++
  [0x4E, 0x30, 0x31, 0x32, 0x33, 0x34, 0x35, 0x36, 0x37, 0x38, 0x39, 0x41, 0x42, 0x43, 0x44, 0x00] ++
  [0xFD, 0x08, 0xFD, 0x08, 0xFB, 0xFF, 0xFF, 0x00, 0x23, 0x00, 0x22, 0x00, 0x00, 0x00, 0x29, 0x00] ++
  [0x00, 0x00, 0x00, 0x09, 0x01, 0x00, 0x00, 0x00, 0x00, 0x13, 0x88, 0x03, 0xE8, 0x00, 0x00, 0x00] ++
  [0x00, 0x00, 0x00, 0x04, 0xD2, 0x02, 0x37, 0x00, 0x01, 0xE2, 0x40, 0x00, 0x00, 0x00, 0x00, 0x00] ++
  [0x03, 0x00, 0x00, 0x00, 0x00, 0x00, 0x00, 0x00, 0x96, 0x00, 0x00, 0x01, 0x40, 0x00, 0x00, 0x00] ++
  [0x00, 0x00, 0x00, 0x00, 0x00, 0xAB, 0x16]

/-- Frame V with byte 1 = 0x58 (VL of program P2). -/
def frameVL : List Byte := 0x68 :: 0x58 :: frameV.drop 2

/-- RF of frame V: the values of the table of section 0. -/
def rawV : RawFrame where
  start := 0x68
  len := 0x59
  ctrl := 0x41B0
  id1 := 0x12345678
  id2 := 0x9ABCDEF0
  cmd := 0x81
  ptype := 0x0102
  serial := [0x53, 0x4E, 0x30, 0x31, 0x32, 0x33, 0x34, 0x35, 0x36, 0x37, 0x38, 0x39, 0x41, 0x42, 0x43, 0x44]
  temp := 253
  vdc1 := 2301
  vdc2 := 2299
  adc1 := 35
  adc2 := 34
  aac := 41
  vac := 2305
  fac := 5000
  pnow := 1000
  yday := 1234
  today := 567
  total := 123456
  status := 0x0003
  month := 150
  lastMonth := 320
  checksum := 171
  endMarker := 22

/-- Vector V-REC of section 0. -/
def recordV : InverterRecord where
  tempC := 0x40394CCCCCCCCCCD
  vdc1V := 0x406CC33333333333
  vdc2V := 0x406CBCCCCCCCCCCD
  adc1A := 0x400C000000000000
  adc2A := 0x400B333333333333
  aacA := 0x4010666666666666
  vacV := 0x406CD00000000000
  facHz := 0x4049000000000000
  pnowW := 1732
  eydayKwh := 0x4028AE147AE147AE
  etodayKwh := 0x4016AE147AE147AE
  etotalKwh := 0x40C81CCCCCCCCCCD
  emonth := 150
  elastMonth := 320
  status := .generating

/-! ### Small states -/

/-- An entry just taken by PROCESS. -/
def inHand (bytes : List Byte) : State := { State.reset with cur := some ⟨0, bytes⟩, nextTag := 1 }

/-- An entry that ACCEPT has passed, with RF as given. -/
def accepted (bytes : List Byte) (r : RawFrame) : State := { inHand bytes with rf := some r }

/-- An entry that LENCHK has passed, with RF and REC as given. -/
def validated (r : RawFrame) (c : InverterRecord) : State := { accepted frameV r with rc := some c }

/-- Two pending deliveries of frame V (section 2.8). -/
def twoPending : State :=
  { State.reset with pending := [⟨0, frameV⟩, ⟨1, frameV⟩], nextTag := 2 }

/-- The next state's part that a test looks at. -/
def nextAnd (o : Result) (p : State → Bool) : Bool :=
  match o with
  | .next s => p s
  | _ => false

/-- The refusal of an outcome. -/
def refusalOf (o : Result) : Option Refusal :=
  match o with
  | .refused r => some r
  | _ => none

/-! ### WellFormed: the one check, with an operand it refuses -/

theorem test_wf_refuses_over_rx_max :
    (Instr.deliver (List.replicate (Config.rxMax + 1) 0)).wf = false := by
  simp [Instr.wf]

theorem test_deliver_refuses_over_rx_max :
    exec (.deliver (List.replicate (Config.rxMax + 1) 0)) twoPending = .refused .overRxMax :=
  execDeliver_over_rxMax (by simp) _

theorem test_wf_admits_a_whole_frame : (Instr.deliver frameV).wf = true := by
  simp [Instr.wf, frameV, Config.rxMax]

/-! ### The parameters of R5 and the layout of R92 -/

theorem test_parameters :
    Config.default = ⟨103, 89⟩ ∧ Config.fpFormat.width = 64 ∧ Config.fpFormat.bias = 1023 ∧
    Config.fpFormat.infinity = 0x7FF0000000000000 ∧ Config.pWidth = 32 := by decide

/-! ### Decoding: words of the spec's encodings -/

theorem test_decode_hostop :
    decode (.host 0b00 []) = .ok .hostNone ∧ decode (.host 0b01 [0x68, 0x59]) = .ok (.deliver [0x68, 0x59]) ∧
    decode (.host 0b10 []) = .ok .reset ∧ decode (.host 0b11 []) = .ok .reservedHostop3 := by decide

theorem test_decode_engine_and_units :
    decode (.engine 7) = .ok (.process 7) ∧ decode (.decoder 0) = .ok .accept ∧
    decode (.decoder 35) = .ok .lenchk ∧ decode (.composite .decode) = .ok .decode ∧
    decode (.composite .convert) = .ok .convert ∧ decode (.composite .status) = .ok .status := by decide

/-- The decoder rows of R71, by their printed numbers. -/
theorem test_decode_frame_rows_low :
    (List.range 17).map (fun n => decode (.decoder (n + 1))) =
      [.ok .extractStart, .ok .extractLen, .ok .extractCtrl, .ok .extractId1,
       .ok .extractId2, .ok .extractCmd, .ok .extractPtype, .ok .extractSerial,
       .ok .extractTemp, .ok .extractVdc1, .ok .extractVdc2, .ok .skipRsv0,
       .ok .extractAdc1, .ok .extractAdc2, .ok .skipRsv1, .ok .extractAac, .ok .skipRsv2] := by decide

theorem test_decode_frame_rows_high :
    (List.range 17).map (fun n => decode (.decoder (n + 18))) =
      [.ok .extractVac, .ok .skipRsv3, .ok .extractFac, .ok .extractPnow, .ok .skipRsv4,
       .ok .extractYday, .ok .extractToday, .ok .extractTotal, .ok .skipRsv5,
       .ok .extractStatus, .ok .skipRsv6, .ok .extractMonth, .ok .skipRsv7,
       .ok .extractLastMonth, .ok .skipRsv8, .ok .extractChecksum, .ok .extractEnd] := by decide

/-- The converter rows: the field of R82, by its row in R71. -/
theorem test_decode_converter_rows :
    [9, 10, 11, 13, 14, 16, 18, 20, 21, 23, 24, 25, 29, 31].map (fun n => decode (.converter n)) =
      [.ok .convTemp, .ok .convVdc1, .ok .convVdc2, .ok .convAdc1, .ok .convAdc2,
       .ok .convAac, .ok .convVac, .ok .convFac, .ok .convPnow, .ok .convYday,
       .ok .convToday, .ok .convTotal, .ok .convMonth, .ok .convLastMonth] := by decide

/-- The STATUS16 rows of R83. -/
theorem test_decode_status16 :
    decode (.status16 0x0003 0) = .ok .statusOff ∧ decode (.status16 0x0000 866) = .ok .statusReady ∧
    decode (.status16 0x0003 1732) = .ok .statusGenerating ∧ decode (.status16 0x1015 0) = .ok .statusNogrid ∧
    decode (.status16 0x1510 0) = .ok .statusUnknown := by decide

theorem test_decode_refuses_by_name :
    decode (.decoder 36) = .error (.noDecoderStage 36) ∧ decode (.converter 12) = .error (.noConverterRow 12) ∧
    decode (.raw 8 4) = .error (.noFormat 8 4) ∧ decodeTableWord 8 4 = none := by decide

/-- No two rows of R71 have the same number, and no two cover the same byte. -/
theorem test_frame_rows_do_not_overlap :
    frameRows.Pairwise (fun a b => a.num ≠ b.num ∧ a.offset + a.width ≤ b.offset) := by decide

/-! ### A word of the opcode table runs as the first step -/

theorem test_fetch_hostops :
    nextAnd (step (State.reset.withFetchWord 8 0b00)) (· == State.reset) = true ∧
    nextAnd (step (State.reset.withFetchWord 8 0b01)) (fun s => s.pending == [⟨0, []⟩] && s.nextTag == 1) = true ∧
    nextAnd (step (State.reset.withFetchWord 8 0b10)) (· == State.reset) = true ∧
    refusalOf (step (State.reset.withFetchWord 8 0b11)) = some .reservedHostop := by decide

theorem test_fetch_lenchk :
    nextAnd (step (State.reset.withFetchWord 8 0x59)) (fun s => s.rc.isSome) = true := by decide

theorem test_fetch_status16 :
    nextAnd (step (State.reset.withFetchWord 16 0x0003)) (fun s => s.rc.map (·.status) == some .off) = true ∧
    nextAnd (step (State.reset.withFetchWord 16 0x1015)) (fun s => s.rc.map (·.status) == some .noGrid) = true := by
  decide

/-! ### The host's transactions (section 2.8) -/

theorem test_deliver_from_reset :
    nextAnd (exec (.deliver frameV) State.reset)
      (· == { State.reset with pending := [⟨0, frameV⟩], nextTag := 1 }) = true := by decide

theorem test_reset_discards_pending : nextAnd (exec .reset twoPending) (· == State.reset) = true := by decide

theorem test_none_and_reserved :
    nextAnd (exec .hostNone twoPending) (· == twoPending) = true ∧
    refusalOf (exec .reservedHostop3 twoPending) = some .reservedHostop := by decide

/-! ### The decoder (sections 2.1 to 2.4) -/

theorem test_accept_lengths :
    nextAnd (exec .accept (inHand frameV)) (fun s => s.rf.isSome && s.out.isEmpty) = true ∧
    nextAnd (exec .accept (inHand []))
      (fun s => s.out == [.error 0 (.wireLengthMismatch 0 [])] && s.cur.isNone) = true ∧
    nextAnd (exec .accept (inHand (frameV.take 102)))
      (fun s => s.out == [.error 0 (.wireLengthMismatch 102 (frameV.take 102))]) = true ∧
    nextAnd (exec .accept (inHand (frameV ++ [0])))
      (fun s => s.out == [.error 0 (.wireLengthMismatch 104 (frameV ++ [0]))]) = true := by decide

theorem test_decode_of_frame_V :
    nextAnd (exec .decode (inHand frameV)) (fun s => s.rf == some rawV && s.out.isEmpty) = true := by decide

theorem test_extract_is_big_endian :
    nextAnd (exec .extractId2 (accepted frameV RawFrame.blank))
      (· == accepted frameV { RawFrame.blank with id2 := 2596069104 }) = true ∧
    nextAnd (exec .extractStatus (accepted frameV RawFrame.blank))
      (· == accepted frameV { RawFrame.blank with status := 3 }) = true := by decide

theorem test_extract_refused_off_the_frame :
    refusalOf (exec .extractTemp (accepted (frameV.take 50) RawFrame.blank)) = some .notFrameLength ∧
    refusalOf (exec .extractTemp (inHand frameV)) = some .noFrame ∧
    refusalOf (exec .extractTemp State.reset) = some .noDelivery := by decide

theorem test_lenchk_values :
    nextAnd (exec .lenchk (accepted frameV rawV)) (fun s => s.rc.isSome && s.out.isEmpty) = true ∧
    nextAnd (exec .lenchk (accepted frameVL { rawV with len := 0x58 }))
      (fun s => s.out == [.error 0 (.invalidPacketLength 88)] && s.rf.isNone) = true ∧
    nextAnd (exec .lenchk { accepted frameVL { rawV with len := 0x58 } with config := ⟨103, 88⟩ })
      (fun s => s.rc.isSome) = true := by decide

/-! ### The converter (sections 2.5 and 2.6) -/

theorem test_convert_of_frame_V :
    nextAnd (exec .convert (validated rawV InverterRecord.blank)) (fun s => s.rc == some recordV) = true := by
  decide

theorem test_scale_by_10 :
    [0, 1, 2, 3, 5, 10, 200, 65535, 4294967295].map (scale · 10) =
      [0x0000000000000000, 0x3FB999999999999A, 0x3FC999999999999A, 0x3FD3333333333333, 0x3FE0000000000000,
       0x3FF0000000000000, 0x4034000000000000, 0x40B9998000000000, 0x41B9999999800000] := by decide

theorem test_scale_by_100 :
    [0, 1, 3, 99, 100, 125, 5000, 65535].map (scale · 100) =
      [0x0000000000000000, 0x3F847AE147AE147B, 0x3F9EB851EB851EB8, 0x3FEFAE147AE147AE, 0x3FF0000000000000,
       0x3FF4000000000000, 0x4049000000000000, 0x40847ACCCCCCCCCD] := by decide

theorem test_power_correction :
    [0, 1, 2, 3, 577, 1000, 1155, 2911, 5822, 37837, 37838, 40545, 65535].map correctPower =
      [0, 1, 3, 5, 999, 1732, 2000, 5041, 10083, 65535, 65537, 70225, 113509] := by decide

/-! ### The status interpreter (section 2.7) -/

theorem test_status_vectors :
    [((0x0000 : BitVec 16), (0 : BitVec 16)), (0x0000, 500), (0x0003, 0), (0x0003, 1), (0x0003, 1000), (0x1015, 0),
      (0x1015, 10), (0x0001, 0), (0x0002, 0), (0x0300, 0), (0x1510, 0), (0x1014, 5), (0xFFFF, 0)].map
        (fun p => (statusLabel p.1 (correctPower p.2)).code) = [0, 0, 4, 1, 1, 2, 2, 3, 3, 3, 3, 3, 3] := by decide

theorem test_status_rows_hit_or_leave :
    nextAnd (exec .statusOff (validated rawV { recordV with pnowW := 0 }))
      (fun s => s.rc.map (·.status) == some .off) = true ∧
    nextAnd (exec .statusOff (validated rawV recordV)) (· == validated rawV recordV) = true ∧
    nextAnd (exec .statusUnknown (validated { rawV with status := 0x1510 } recordV))
      (fun s => s.rc.map (·.status) == some .unknown) = true := by decide

/-! ### PROCESS (section 2.8) -/

theorem test_process_out_of_order :
    nextAnd (exec (.process 1) twoPending)
      (· == { State.reset with pending := [⟨0, frameV⟩], nextTag := 2, out := [.record 1 recordV] }) = true := by
  decide

theorem test_process_rejects :
    nextAnd (exec (.process 0) { State.reset with pending := [⟨0, frameVL⟩], nextTag := 1 })
      (· == { State.reset with nextTag := 1, out := [.error 0 (.invalidPacketLength 88)] }) = true ∧
    nextAnd (exec (.process 0) { State.reset with pending := [⟨0, frameVL.take 102⟩], nextTag := 1 })
      (fun s => s.out == [.error 0 (.wireLengthMismatch 102 (frameVL.take 102))]) = true ∧
    refusalOf (exec (.process 5) twoPending) = some .notPending := by decide

/-! ### The hypotheses of the statements can be met -/

theorem witness_twoPending_inv : twoPending.Inv := by decide

theorem witness_step_runs :
    (twoPending.withFetchWord 8 0b10).program = [.host 0b10 []] ∧ decode (.host 0b10 []) = .ok .reset ∧
    (twoPending.withFetchWord 8 0xFF).program = [.raw 8 0xFF] ∧ decode (.raw 8 0xFF) = .error (.noFormat 8 0xFF) := by
  decide

theorem witness_idle :
    twoPending.program = [] ∧ twoPending.pending ≠ [] ∧ State.reset.program = [] ∧ State.reset.pending = [] := by decide

theorem witness_deliver_keeps_others :
    twoPending.Inv ∧ nextAnd (exec (.deliver frameVL) twoPending)
      (fun t => Memory.bytes? t.pending 2 == some frameVL && Memory.bytes? t.pending 0 == some frameV) = true := by
  decide

/-- The bound of DELIVER's operand, at RX_MAX and one above it. -/
theorem witness_deliver_bounds :
    (List.replicate Config.rxMax (0 : Byte)).length ≤ Config.rxMax ∧
    Config.rxMax < (List.replicate (Config.rxMax + 1) (0 : Byte)).length := by simp

theorem witness_entry_in_hand :
    (inHand frameV).cur = some ⟨0, frameV⟩ ∧ frameV.length = (inHand frameV).config.wireLen ∧
    (inHand (frameV.take 50)).cur = some ⟨0, frameV.take 50⟩ ∧
    (frameV.take 50).length ≠ (inHand (frameV.take 50)).config.wireLen := by decide

/-- The hypotheses of the EXTRACT statements, on the frame and off it. -/
theorem witness_accepted :
    (accepted frameV RawFrame.blank).cur = some ⟨0, frameV⟩ ∧
    (accepted frameV RawFrame.blank).rf = some RawFrame.blank ∧ frameV.length = 103 ∧
    (accepted (frameV.take 50) RawFrame.blank).cur = some ⟨0, frameV.take 50⟩ ∧ (frameV.take 50).length ≠ 103 := by
  decide

theorem witness_lenchk :
    (accepted frameV rawV).cur = some ⟨0, frameV⟩ ∧ (accepted frameV rawV).rf = some rawV ∧
    rawV.len = (accepted frameV rawV).config.payloadLen ∧
    (accepted frameVL { rawV with len := 0x58 }).rf = some { rawV with len := 0x58 } ∧
    (0x58 : Byte) ≠ (accepted frameVL { rawV with len := 0x58 }).config.payloadLen := by decide

/-- The hypotheses of the DECODE statement, one for each clause. -/
theorem witness_decode :
    (inHand frameV).config.wireLen = 103 ∧ (frameV.take 102).length ≠ 103 ∧ frameVL.length = 103 ∧
    (frameOf frameVL).len ≠ (inHand frameVL).config.payloadLen ∧
    (frameOf frameV).len = (inHand frameV).config.payloadLen ∧
    byteAt frameV 1 = (inHand frameV).config.payloadLen := by decide

/-- The hypotheses of the converter and status statements. -/
theorem witness_validated :
    (validated rawV InverterRecord.blank).cur = some ⟨0, frameV⟩ ∧
    (validated rawV InverterRecord.blank).rf = some rawV ∧
    (validated rawV InverterRecord.blank).rc = some InverterRecord.blank ∧ rawV.status = 0x0003 ∧
    (validated { rawV with pnow := 0 } recordV).rf = some { rawV with pnow := 0 } ∧
    (validated { rawV with pnow := 1 } recordV).rf = some { rawV with pnow := 1 } := by decide

/-- The order of two stages: RF missing, and REC missing. -/
theorem witness_stage_order :
    (inHand frameV).cur = some ⟨0, frameV⟩ ∧ (inHand frameV).rf = none ∧
    (accepted frameV rawV).rf = some rawV ∧ (accepted frameV rawV).rc = none := by decide

theorem witness_scale :
    (0x3FF0000000000000 : Binary64).toNat < 0x7FF0000000000000 ∧ (0 : BitVec 32) = 0 ∧ (1 : BitVec 32) ≠ 0 := by decide

theorem witness_statmap :
    byteAt (List.replicate 79 0 ++ [0x10, 0x15]) 79 = 0x10 ∧ byteAt (List.replicate 79 0 ++ [0x10, 0x15]) 80 = 0x15 ∧
    byteAt (List.replicate 79 0 ++ [0x15, 0x10]) 79 = 0x15 ∧ byteAt (List.replicate 79 0 ++ [0x15, 0x10]) 80 = 0x10 ∧
    (0x1014 : BitVec 16) ≠ 0x0000 ∧ (0x1014 : BitVec 16) ≠ 0x0003 ∧ (0x1014 : BitVec 16) ≠ 0x1015 := by decide

/-- The hypotheses of the PROCESS statements: a pending tag of each kind of delivery, and one not pending. -/
theorem witness_process :
    twoPending.cur = none ∧ twoPending.rf = none ∧ twoPending.rc = none ∧ twoPending.config.wireLen = 103 ∧
    Memory.bytes? twoPending.pending 0 = some frameV ∧ Memory.bytes? twoPending.pending 1 = some frameV ∧
    Memory.bytes? twoPending.pending 2 = none ∧ frameV.length = 103 ∧
    byteAt frameV 1 = twoPending.config.payloadLen := by decide

/-- Pending deliveries that fail: a wrong length and a wrong LEN. -/
theorem witness_process_errors :
    ({ State.reset with pending := [⟨0, frameV.take 50⟩, ⟨1, frameVL⟩], nextTag := 2 } : State).Inv ∧
    (frameV.take 50).length ≠ 103 ∧ frameVL.length = 103 ∧ byteAt frameVL 1 ≠ State.reset.config.payloadLen := by
  decide

/-- Two states that hold the same bytes under different tags. -/
theorem witness_same_bytes :
    twoPending.Inv ∧ ({ State.reset with pending := [⟨0, frameV⟩], nextTag := 1 } : State).Inv ∧
    Memory.bytes? twoPending.pending 1 = some frameV ∧ Memory.bytes? [⟨0, frameV⟩] 0 = some frameV := by decide

/-- Frames that agree outside RSV0, and frames that agree outside CHECKSUM and END. -/
theorem witness_unchecked_bytes :
    (∀ i < 103, ¬ (37 ≤ i ∧ i ≤ 38) →
      byteAt frameV i = byteAt (frameV.take 37 ++ [0, 0] ++ frameV.drop 39) i) ∧
    (∀ i < 103, ¬ (101 ≤ i ∧ i ≤ 101) → ¬ (102 ≤ i ∧ i ≤ 102) →
      byteAt frameV i = byteAt (frameV.take 101 ++ [0, 0]) i) := by decide

theorem witness_unknown_codes :
    statmap 0x1510 = .unknown ∧ statmap 0xFFFF = .unknown ∧
    (recordOf { rawV with status := 0x0003 }).status = (recordOf rawV).status := by decide

/-- A reserved contents of the right lengths. -/
def reservedV : Reserved := reservedOf frameV

theorem witness_frame_codec :
    rawV.wf ∧ reservedV.wf ∧ encodeFrame rawV reservedV = frameV ∧
    (inHand frameV).config.payloadLen = rawV.len := by decide

/-- A step of the function, and the same step in the relation. -/
theorem witness_step_relation :
    twoPending.Inv ∧ nextAnd (step (twoPending.withFetchWord 8 0b10)) (fun _ => true) = true ∧
    IsStep .hostNone ∧ twoPending.Takes .hostNone twoPending := ⟨by decide, by decide, .inl rfl, rfl⟩

/-- An admitted run with an entry pending at moment 1. -/
theorem witness_admitted_run : Admitted busyRun ∧ (⟨0, []⟩ : Delivery) ∈ (busyRun 1).pending :=
  ⟨busyRun_admitted, by decide⟩

theorem witness_quiet : twoPending.Quiet ∧ nextAnd (exec (.process 0) twoPending) (fun _ => true) = true := by decide

end Sys2Proof.Tests
end

section
/-! What a step does while the program holds a slot (R230, log entries 5 and 11): it runs the operation the slot
decodes to, or is refused. -/

namespace Sys2Proof.Machine

variable {s : State} {sl : Slot} {rest : List Slot}

/-- A step from a program whose first slot is an operation's: the slot is consumed before the operation runs, so an
operation that reads or replaces the program sees the rest of it. -/
theorem step_of_decode_ok {i : Instr} (hprog : s.program = sl :: rest) (hdec : decode sl = .ok i) :
    step s = exec i { s with program := rest } := by
  simp only [step, hprog, hdec]

/-- A step from a program whose first slot has no code; which decode error it is does not matter (log entry 11). -/
theorem step_of_decode_error {e : DecodeError} (hprog : s.program = sl :: rest) (hdec : decode sl = .error e) :
    step s = .refused .undecodable := by
  simp only [step, hprog, hdec]

end Sys2Proof.Machine

namespace Sys2Proof.Proofs

open Sys2Proof.Machine

/-- Settles O5, by the two outcomes of decoding the first slot. -/
theorem stepRunsTheDecodedOperation : Obligations.StepRunsTheDecodedOperation := by
  intro s sl rest hprog
  constructor
  · intro i hdec
    exact step_of_decode_ok hprog hdec
  · intro e hdec
    exact step_of_decode_error hprog hdec

end Sys2Proof.Proofs
end

section
/-! What every operation leaves unchanged (R21, R25, R27, R58). A stage of a PROCESS step keeps CONFIG, PENDING,
NEXT_TAG and the model's own fields, and touches OUT only by the one event that ends the delivery in hand
(`StageEffect`). The relation composes, so it holds of whole units, and `exec_cases` says from it what any operation
can do. -/

namespace Sys2Proof.Machine

variable {s t u : State}

/-- What a stage, or a run of stages, can do to the state: write RF and REC, and give up the entry in hand with its one
event (R8, R232). -/
structure StageEffect (s t : State) : Prop where
  config : t.config = s.config
  pending : t.pending = s.pending
  nextTag : t.nextTag = s.nextTag
  program : t.program = s.program
  choice : t.choice = s.choice
  entry : (t.cur = s.cur ∧ t.out = s.out) ∨
    ∃ d e, s.cur = some d ∧ t.cur = none ∧ e.tag = d.tag ∧ t.out = s.out ++ [e]

theorem StageEffect.records (s : State) (rf : Option RawFrame) (rc : Option InverterRecord) :
    StageEffect s { s with rf := rf, rc := rc } :=
  ⟨rfl, rfl, rfl, rfl, rfl, .inl ⟨rfl, rfl⟩⟩

theorem StageEffect.refl (s : State) : StageEffect s s := .records s s.rf s.rc

theorem StageEffect.finish {d : Delivery} {e : Event} (hc : s.cur = some d) (he : e.tag = d.tag) :
    StageEffect s (s.emit e).discard :=
  ⟨rfl, rfl, rfl, rfl, rfl, .inr ⟨d, e, hc, rfl, he, rfl⟩⟩

/-- The effects compose: once the entry is given up, a later stage has none to give up. -/
theorem StageEffect.trans (h₁ : StageEffect s t) (h₂ : StageEffect t u) : StageEffect s u := by
  refine ⟨h₂.config.trans h₁.config, h₂.pending.trans h₁.pending, h₂.nextTag.trans h₁.nextTag,
    h₂.program.trans h₁.program, h₂.choice.trans h₁.choice, ?_⟩
  obtain ⟨hcur, hout⟩ | ⟨d, e, hd, hcur, he, hout⟩ := h₁.entry
  · simpa only [hcur, hout] using h₂.entry
  · obtain ⟨hcur', hout'⟩ | ⟨d', -, hd', -⟩ := h₂.entry
    · exact .inr ⟨d, e, hd, hcur'.trans hcur, he, hout'.trans hout⟩
    · simp [hcur] at hd'

/-- With no entry in hand there is no event to append. -/
theorem StageEffect.out_of_cur_none (h : StageEffect s t) (hc : s.cur = none) : t.out = s.out := by
  obtain ⟨-, hout⟩ | ⟨d, -, hd, -⟩ := h.entry
  · exact hout
  · simp [hc] at hd

/-- A list of stages has the effect of a stage. -/
theorem runStages_effect {fs : List (State → Result)}
    (hf : ∀ f ∈ fs, ∀ s t, f s = .next t → StageEffect s t) (h : runStages fs s = .next t) :
    StageEffect s t :=
  runStages_keeps (P := StageEffect s) (fun f hm s₁ s₂ h₁ h₂ => h₁.trans (hf f hm s₁ s₂ h₂)) s t
    (.refl s) h

/-! ### The stages -/

theorem onFrame_effect {f : List Byte → RawFrame → RawFrame} (h : onFrame s f = .next t) : StageEffect s t := by
  obtain ⟨d, r, -, -, -, rfl⟩ := onFrame_cases h
  exact .records s _ s.rc

theorem onRecord_effect {f : RawFrame → InverterRecord → InverterRecord} (h : onRecord s f = .next t) :
    StageEffect s t := by
  obtain ⟨d, r, c, -, -, -, rfl⟩ := onRecord_cases h
  exact .records s s.rf _

theorem emitRecord_effect (h : emitRecord s = .next t) : StageEffect s t := by
  obtain ⟨d, c, hc, -, rfl⟩ := emitRecord_cases h
  exact .finish hc rfl

theorem execAccept_effect (h : execAccept s = .next t) : StageEffect s t := by
  unfold execAccept at h
  split at h
  · cases h
  · next d hc =>
    split at h
    · cases h
      exact .records s _ _
    · cases h
      exact .finish hc rfl

theorem execLenchk_effect (h : execLenchk s = .next t) : StageEffect s t := by
  unfold execLenchk at h
  split at h
  · next d r hc _ =>
    split at h
    · cases h
      exact .records s s.rf _
    · cases h
      exact .finish hc rfl
  · cases h
  · cases h

/-- The operations that are one stage of PROCESS: all but the host's, PROCESS, and the units DECODE and CONVERT that
are made of several (R23). -/
def isSingleStage : Instr → Bool
  | .hostNone | .deliver _ | .reset | .reservedHostop3 | .process _ | .decode | .convert => false
  | _ => true

theorem exec_effect_of_isSingleStage {i : Instr} (hi : isSingleStage i = true) (h : exec i s = .next t) :
    StageEffect s t := by
  cases i with
  | hostNone | deliver | reset | reservedHostop3 | process | decode | convert => cases hi
  | accept => exact execAccept_effect h
  | lenchk => exact execLenchk_effect h
  | skipRsv0 | skipRsv1 | skipRsv2 | skipRsv3 | skipRsv4 | skipRsv5 | skipRsv6 | skipRsv7 | skipRsv8 =>
    cases h
    exact .refl s
  | convTemp | convVdc1 | convVdc2 | convAdc1 | convAdc2 | convAac | convVac | convFac | convYday | convToday
  | convTotal | convPnow | convMonth | convLastMonth
  | statusOff | statusReady | statusGenerating | statusNogrid | statusUnknown | status =>
    dsimp only [exec] at h
    exact onRecord_effect h
  | _ =>
    dsimp only [exec] at h
    exact onFrame_effect h

/-- A list of single stages, given as operations, has the effect of a stage. -/
theorem runStages_exec_effect {is : List Instr} (his : ∀ i ∈ is, isSingleStage i = true)
    (h : runStages (is.map exec) s = .next t) : StageEffect s t := by
  refine runStages_effect (fun f hf s₁ s₂ h₁ => ?_) h
  obtain ⟨i, hi, rfl⟩ := List.mem_map.mp hf
  exact exec_effect_of_isSingleStage (his i hi) h₁

/-- DECODE is ACCEPT, the operations of the FRAME103 table in its order, and LENCHK (R157, R71). -/
theorem execDecode_eq_frameRows (s : State) :
    execDecode s = runStages ((Instr.accept :: frameRows.map FrameRow.op ++ [Instr.lenchk]).map exec) s := rfl

theorem execDecode_effect (h : execDecode s = .next t) : StageEffect s t :=
  runStages_exec_effect (by decide) (execDecode_eq_frameRows s ▸ h)

/-- CONVERT as a list of operations (R186). -/
theorem execConvert_eq_ops (s : State) :
    execConvert s = runStages ([Instr.convTemp, .convVdc1, .convVdc2, .convAdc1, .convAdc2, .convAac, .convVac,
      .convFac, .convYday, .convToday, .convTotal, .convPnow, .convMonth, .convLastMonth, .status].map exec) s := rfl

theorem execConvert_effect (h : execConvert s = .next t) : StageEffect s t :=
  runStages_exec_effect (by decide) (execConvert_eq_ops s ▸ h)

theorem processStages_effect (h : runStages processStages s = .next t) : StageEffect s t := by
  refine runStages_effect (fun f hf s₁ s₂ h₁ => ?_) h
  simp only [processStages, List.mem_cons, List.not_mem_nil, or_false] at hf
  obtain rfl | rfl | rfl | rfl := hf
  · exact execDecode_effect h₁
  · exact execConvert_effect h₁
  · exact onRecord_effect h₁
  · exact emitRecord_effect h₁

/-! ### The operations and the steps -/

/-- All that PROCESS can do when it answers a next state: the entry is taken, then the stages have their effect
(R232). -/
theorem execProcess_cases {tag : Nat} (h : execProcess tag s = .next t) :
    ∃ bytes, s.cur = none ∧ Memory.bytes? s.pending tag = some bytes ∧ StageEffect (s.take tag bytes) t := by
  unfold execProcess at h
  split at h
  · cases h
  · next hc =>
    split at h
    · cases h
    · next bytes hb => exact ⟨bytes, hc, hb, processStages_effect h⟩

/-- All that an operation can do when it answers a next state. -/
theorem exec_cases {i : Instr} (h : exec i s = .next t) :
    (i = .reset ∧ t = { s with pending := [], nextTag := 0, out := [], cur := none, rf := none, rc := none }) ∨
    (∃ bytes, i = .deliver bytes ∧ bytes.length ≤ Config.rxMax ∧ t = { s with
      pending := Memory.insert s.pending ⟨s.nextTag, bytes⟩, nextTag := s.nextTag + 1 }) ∨
    (∃ tag bytes, i = .process tag ∧ s.cur = none ∧ Memory.bytes? s.pending tag = some bytes ∧
      StageEffect (s.take tag bytes) t) ∨
    StageEffect s t := by
  cases i with
  | reset =>
    cases h
    exact .inl ⟨rfl, rfl⟩
  | deliver bytes => exact .inr (.inl ⟨bytes, rfl, execDeliver_cases h⟩)
  | process tag =>
    obtain ⟨bytes, hc, hb, he⟩ := execProcess_cases h
    exact .inr (.inr (.inl ⟨tag, bytes, rfl, hc, hb, he⟩))
  | reservedHostop3 => cases h
  | hostNone =>
    cases h
    exact .inr (.inr (.inr (.refl s)))
  | decode => exact .inr (.inr (.inr (execDecode_effect h)))
  | convert => exact .inr (.inr (.inr (execConvert_effect h)))
  | _ => exact .inr (.inr (.inr (exec_effect_of_isSingleStage rfl h)))

/-- A step that completes is an operation on the same state but for the model's own fields (log entries 5, 6 and 7). -/
theorem step_cases (h : step s = .next t) :
    ∃ i program choice, exec i { s with program := program, choice := choice } = .next t := by
  unfold step at h
  split at h
  · unfold idleStep at h
    split at h
    · exact ⟨.hostNone, s.program, s.choice, h⟩
    · split at h
      · next d _ => exact ⟨.process d.tag, s.program, s.choice + 1, h⟩
      · exact ⟨.hostNone, s.program, s.choice, h⟩
  · next sl rest _ =>
    split at h
    · next i _ => exact ⟨i, rest, s.choice, h⟩
    · cases h

/-- No operation writes CONFIG (R21). -/
theorem exec_config {i : Instr} (h : exec i s = .next t) : t.config = s.config := by
  obtain ⟨-, rfl⟩ | ⟨_, -, -, rfl⟩ | ⟨_, _, -, -, -, he⟩ | he := exec_cases h
  · rfl
  · rfl
  · exact he.config
  · exact he.config

end Sys2Proof.Machine

namespace Sys2Proof.Proofs

open Sys2Proof.Machine

/-- Settles O44: between steps no entry is in hand, so a stage has no event to append, and PROCESS appends the one event
of the entry it has taken. -/
theorem onlyProcessAppendsAndOnlyResetClearsOut : Obligations.OnlyProcessAppendsAndOnlyResetClearsOut := by
  intro i s t hq h
  obtain ⟨hi, rfl⟩ | ⟨_, -, -, rfl⟩ | ⟨tag, bytes, hi, -, -, he⟩ | he := exec_cases h
  · exact .inr (.inl ⟨hi, rfl⟩)
  · exact .inl rfl
  · obtain ⟨-, hout⟩ | ⟨d, e, hd, -, htag, hout⟩ := he.entry
    · exact .inl hout
    · cases hd
      exact .inr (.inr ⟨tag, e, hi, htag, hout⟩)
  · exact .inl (he.out_of_cur_none hq.1)

/-- Settles O45: a lookup in PENDING after RESET, after DELIVER's insertion, after PROCESS's removal, and after a stage,
which leaves PENDING as it is. -/
theorem pendingBytesAreNeverChanged : Obligations.PendingBytesAreNeverChanged := by
  intro i s t h
  obtain ⟨hi, rfl⟩ | ⟨bytes, rfl, -, rfl⟩ | ⟨tag, bytes, rfl, -, -, he⟩ | he := exec_cases h
  · exact ⟨fun u b hb => by simp at hb, fun hne => absurd hi hne⟩
  · constructor
    · intro u b hb
      rw [Memory.bytes?_insert, Option.or_eq_some_iff] at hb
      obtain hold | ⟨-, hnew⟩ := hb
      · exact .inl hold
      · obtain ⟨rfl, rfl⟩ : s.nextTag = u ∧ bytes = b := by simpa using hnew
        exact .inr ⟨rfl, rfl⟩
    · intro _ u b _ hb
      simp [Memory.bytes?_insert, hb]
  · rw [he.pending, State.take_pending]
    constructor
    · intro u b hb
      rw [Memory.bytes?_remove] at hb
      split at hb
      · cases hb
      · exact .inl hb
    · intro _ u b hne hb
      have hu : u ≠ tag := fun hut => hne (hut ▸ rfl)
      rw [Memory.bytes?_remove, if_neg hu]
      exact hb
  · rw [he.pending]
    exact ⟨fun u b hb => .inl hb, fun _ u b _ hb => hb⟩

/-- Settles O46: a step is an operation on a state with the same CONFIG, and no operation writes it. -/
theorem configurationNeverChanges : Obligations.ConfigurationNeverChanges := by
  constructor
  · exact fun i s t h => exec_config h
  · intro s t h
    obtain ⟨i, program, choice, hexec⟩ := step_cases h
    have hconfig := exec_config hexec
    exact hconfig

end Sys2Proof.Proofs
end

section
/-! What an EXTRACT answers on an entry that is not 103 bytes long (R64, log entry 3). -/

namespace Sys2Proof.Machine

/-- The length check of an EXTRACT precedes every read of the entry's bytes, so what would be written to RF does not
matter. -/
theorem onFrame_eq_refused {s : State} {d : Delivery} {r : RawFrame} (hc : s.cur = some d) (hr : s.rf = some r)
    (hl : d.bytes.length ≠ 103) (f : List Byte → RawFrame → RawFrame) : onFrame s f = .refused .notFrameLength := by
  simp [onFrame, hc, hr, frameSize, hl]

end Sys2Proof.Machine

namespace Sys2Proof.Proofs

open Sys2Proof.Machine

/-- Settles O19: each of the 25 EXTRACTs is `onFrame` with an update of RF, and `onFrame` refuses another length whatever
the update. -/
theorem extractIsRefusedOffTheFrame : Obligations.ExtractIsRefusedOffTheFrame := by
  intro s d r hc hr hl i hi
  obtain ⟨f, hf⟩ : ∃ f, exec i s = onFrame s f := by
    fin_cases hi <;> (dsimp only [exec]; exact ⟨_, rfl⟩)
  rw [hf]
  exact onFrame_eq_refused hc hr hl f

end Sys2Proof.Proofs
end

section
/-! The decoder in closed form (R71, R157): what the operation of each FRAME103 row writes to RF, and the three ways
DECODE ends. With CONVERT and STATUS in closed form, PROCESS follows (R186, R232). -/

namespace Sys2Proof.Machine

/-- What the operation of a FRAME103 row makes of RF on a frame of bytes `b` (R120): an EXTRACT fills its field, a SKIP
leaves RF as it is. -/
def frameWrite (b : List Byte) : Instr → RawFrame → RawFrame
  | .extractStart, r => { r with start := (frameOf b).start }
  | .extractLen, r => { r with len := (frameOf b).len }
  | .extractCtrl, r => { r with ctrl := (frameOf b).ctrl }
  | .extractId1, r => { r with id1 := (frameOf b).id1 }
  | .extractId2, r => { r with id2 := (frameOf b).id2 }
  | .extractCmd, r => { r with cmd := (frameOf b).cmd }
  | .extractPtype, r => { r with ptype := (frameOf b).ptype }
  | .extractSerial, r => { r with serial := (frameOf b).serial }
  | .extractTemp, r => { r with temp := (frameOf b).temp }
  | .extractVdc1, r => { r with vdc1 := (frameOf b).vdc1 }
  | .extractVdc2, r => { r with vdc2 := (frameOf b).vdc2 }
  | .extractAdc1, r => { r with adc1 := (frameOf b).adc1 }
  | .extractAdc2, r => { r with adc2 := (frameOf b).adc2 }
  | .extractAac, r => { r with aac := (frameOf b).aac }
  | .extractVac, r => { r with vac := (frameOf b).vac }
  | .extractFac, r => { r with fac := (frameOf b).fac }
  | .extractPnow, r => { r with pnow := (frameOf b).pnow }
  | .extractYday, r => { r with yday := (frameOf b).yday }
  | .extractToday, r => { r with today := (frameOf b).today }
  | .extractTotal, r => { r with total := (frameOf b).total }
  | .extractStatus, r => { r with status := (frameOf b).status }
  | .extractMonth, r => { r with month := (frameOf b).month }
  | .extractLastMonth, r => { r with lastMonth := (frameOf b).lastMonth }
  | .extractChecksum, r => { r with checksum := (frameOf b).checksum }
  | .extractEnd, r => { r with endMarker := (frameOf b).endMarker }
  | _, r => r

/-- The rows of FRAME103 in their order fill every field of RF. -/
theorem frameWrite_foldl_frameRows (b : List Byte) (r : RawFrame) :
    (frameRows.map FrameRow.op).foldl (fun r i => frameWrite b i r) r = frameOf b := rfl

variable {s : State} {d : Delivery} {r : RawFrame} {c : InverterRecord}

/-- An operation of a FRAME103 row completes on an accepted frame of 103 bytes and changes RF only (R120). -/
theorem exec_frameRow {i : Instr} (hi : i ∈ frameRows.map FrameRow.op) (hc : s.cur = some d) (hr : s.rf = some r)
    (hl : d.bytes.length = 103) : exec i s = .next { s with rf := some (frameWrite d.bytes i r) } := by
  have hskip : (.next s : Result) = .next { s with rf := some r } := by rw [← hr]
  have hextract := onFrame_eq_next hc hr hl (frameWrite · i)
  cases i with
  | skipRsv0 | skipRsv1 | skipRsv2 | skipRsv3 | skipRsv4 | skipRsv5 | skipRsv6 | skipRsv7 | skipRsv8 => exact hskip
  | hostNone | deliver | reset | reservedHostop3 | process | accept | lenchk | decode | convTemp | convVdc1 | convVdc2
  | convAdc1 | convAdc2 | convAac | convVac | convFac | convYday | convToday | convTotal | convPnow | convMonth
  | convLastMonth | convert | statusOff | statusReady | statusGenerating | statusNogrid | statusUnknown | status =>
    simp [frameRows, frameRowsLow, frameRowsHigh] at hi
  | _ => exact hextract

/-- A list of operations of FRAME103 rows on an accepted frame runs through, and leaves RF with all that they write. -/
theorem runStages_frameRows {is : List Instr} (his : ∀ i ∈ is, i ∈ frameRows.map FrameRow.op) (hc : s.cur = some d)
    (hr : s.rf = some r) (hl : d.bytes.length = 103) (fs : List (State → Result)) :
    runStages (is.map exec ++ fs) s =
      runStages fs { s with rf := some (is.foldl (fun r i => frameWrite d.bytes i r) r) } := by
  induction is generalizing s r with
  | nil => rw [List.foldl_nil, ← hr]; rfl
  | cons i is ih =>
    obtain ⟨hi, his⟩ := List.forall_mem_cons.mp his
    rw [List.map_cons, List.cons_append, runStages_cons_of_cur (exec_frameRow hi hc hr hl) (by simp [hc])]
    exact ih his hc rfl

theorem execAccept_eq_next (hc : s.cur = some d) (hl : d.bytes.length = s.config.wireLen) :
    execAccept s = .next { s with rf := some RawFrame.blank, rc := none } := by
  simp [execAccept, wireLenOk, hc, hl]

theorem execAccept_eq_raise (hc : s.cur = some d) (hl : d.bytes.length ≠ s.config.wireLen) :
    execAccept s = .next (s.raise d (.wireLengthMismatch d.bytes.length d.bytes)) := by
  simp [execAccept, wireLenOk, hc, hl]

theorem execLenchk_eq_next (hc : s.cur = some d) (hr : s.rf = some r) (hlen : r.len = s.config.payloadLen) :
    execLenchk s = .next { s with rc := some InverterRecord.blank } := by
  simp [execLenchk, payloadLenOk, hc, hr, hlen]

theorem execLenchk_eq_raise (hc : s.cur = some d) (hr : s.rf = some r) (hlen : r.len ≠ s.config.payloadLen) :
    execLenchk s = .next (s.raise d (.invalidPacketLength r.len)) := by
  simp [execLenchk, payloadLenOk, hc, hr, hlen]

/-- DECODE of 103 bytes comes as far as LENCHK, with every field of RF filled (R157). -/
theorem execDecode_eq_execLenchk (hc : s.cur = some d) (hw : s.config.wireLen = 103) (hl : d.bytes.length = 103) :
    execDecode s = runStages [execLenchk] { s with rf := some (frameOf d.bytes), rc := none } := by
  have haccept := execAccept_eq_next hc (hl.trans hw.symm)
  calc execDecode s = runStages ((frameRows.map FrameRow.op).map exec ++ [execLenchk])
        { s with rf := some RawFrame.blank, rc := none } := runStages_cons_of_cur haccept (by simp [hc])
    _ = _ := runStages_frameRows (s := { s with rf := some RawFrame.blank, rc := none }) (fun _ hi => hi) hc rfl hl _

theorem execDecode_of_length_ne (hc : s.cur = some d) (hw : s.config.wireLen = 103) (hl : d.bytes.length ≠ 103) :
    execDecode s = .next (s.raise d (.wireLengthMismatch d.bytes.length d.bytes)) :=
  runStages_cons_of_raise (execAccept_eq_raise hc (hw ▸ hl)) rfl

theorem execDecode_of_len_ne (hc : s.cur = some d) (hw : s.config.wireLen = 103) (hl : d.bytes.length = 103)
    (hlen : (frameOf d.bytes).len ≠ s.config.payloadLen) :
    execDecode s = .next (s.raise d (.invalidPacketLength (frameOf d.bytes).len)) :=
  (execDecode_eq_execLenchk hc hw hl).trans (runStages_cons_of_raise (execLenchk_eq_raise hc rfl hlen) rfl)

theorem execDecode_of_len_eq (hc : s.cur = some d) (hw : s.config.wireLen = 103) (hl : d.bytes.length = 103)
    (hlen : (frameOf d.bytes).len = s.config.payloadLen) :
    execDecode s = .next { s with rf := some (frameOf d.bytes), rc := some InverterRecord.blank } :=
  (execDecode_eq_execLenchk hc hw hl).trans
    (runStages_cons_of_cur (execLenchk_eq_next hc rfl hlen) (by simp [hc]))

/-! ### CONVERT, STATUS and PROCESS in closed form -/

/-- With the records in place no stage of CONVERT can stop, so its fifteen stages evaluate (R186). -/
theorem execConvert_eq_next (hc : s.cur = some d) (hr : s.rf = some r) (hrc : s.rc = some c) :
    execConvert s = .next { s with rc := some (recordOf r) } := by
  obtain ⟨config, pending, nextTag, out, cur, rf, rc, program, choice⟩ := s
  cases hc
  cases hr
  cases hrc
  rfl

theorem execStatus_eq_next (hc : s.cur = some d) (hr : s.rf = some r) (hrc : s.rc = some c) :
    execStatus s = .next { s with rc := some { c with status := statusLabel r.status c.pnowW } } :=
  onRecord_eq_next hc hr hrc _

theorem emitRecord_eq_next (hc : s.cur = some d) (hrc : s.rc = some c) :
    emitRecord s = .next (s.emit (.record d.tag c)).discard := by
  simp [emitRecord, hc, hrc]

/-- The STATUS that PROCESS runs after CONVERT finds its label already written (log entry 9). -/
theorem runStages_processStages_of_len_eq (hc : s.cur = some d) (hw : s.config.wireLen = 103)
    (hl : d.bytes.length = 103) (hlen : (frameOf d.bytes).len = s.config.payloadLen) :
    runStages processStages s = .next (s.emit (.record d.tag (recordOf (frameOf d.bytes)))).discard := by
  let decoded : State := { s with rf := some (frameOf d.bytes), rc := some InverterRecord.blank }
  let converted : State := { s with rf := some (frameOf d.bytes), rc := some (recordOf (frameOf d.bytes)) }
  have hcur : s.cur.isSome = true := by simp [hc]
  have hdecode : execDecode s = .next decoded := execDecode_of_len_eq hc hw hl hlen
  have hconvert : execConvert decoded = .next converted := execConvert_eq_next (s := decoded) hc rfl rfl
  have hstatus : execStatus converted = .next converted := execStatus_eq_next (s := converted) hc rfl rfl
  have hrecord := emitRecord_eq_next (s := converted) hc rfl
  calc runStages processStages s = runStages [execConvert, execStatus, emitRecord] decoded :=
        runStages_cons_of_cur hdecode hcur
    _ = runStages [execStatus, emitRecord] converted := runStages_cons_of_cur hconvert hcur
    _ = runStages [emitRecord] converted := runStages_cons_of_cur hstatus hcur
    _ = _ := runStages_cons_of_raise hrecord rfl

/-- The stages of PROCESS end the delivery with its one event, by the three ways DECODE ends (R232, R255). -/
theorem runStages_processStages (hc : s.cur = some d) (hw : s.config.wireLen = 103) :
    runStages processStages s = .next (s.emit (resultEvent s.config d)).discard := by
  by_cases hl : d.bytes.length = 103
  · by_cases hlen : (frameOf d.bytes).len = s.config.payloadLen
    · have hevent : resultEvent s.config d = .record d.tag (recordOf (frameOf d.bytes)) := by
        simp [resultEvent, wireLenOk, payloadLenOk, hl, hw, hlen]
      rw [hevent]
      exact runStages_processStages_of_len_eq hc hw hl hlen
    · have hevent : resultEvent s.config d = .error d.tag (.invalidPacketLength (frameOf d.bytes).len) := by
        simp [resultEvent, wireLenOk, payloadLenOk, hl, hw, hlen]
      rw [hevent]
      exact runStages_cons_of_raise (execDecode_of_len_ne hc hw hl hlen) rfl
  · have hevent : resultEvent s.config d = .error d.tag (.wireLengthMismatch d.bytes.length d.bytes) := by
      simp [resultEvent, wireLenOk, hw, hl]
    rw [hevent]
    exact runStages_cons_of_raise (execDecode_of_length_ne hc hw hl) rfl

theorem execProcess_eq_next {tag : Nat} {bytes : List Byte} (hc : s.cur = none) (hw : s.config.wireLen = 103)
    (hb : Memory.bytes? s.pending tag = some bytes) :
    execProcess tag s = .next ((s.take tag bytes).emit (resultEvent s.config ⟨tag, bytes⟩)).discard := by
  simp only [execProcess, hc, hb]
  exact runStages_processStages rfl hw

end Sys2Proof.Machine
end

section
/-! A field of FRAME103 in three forms (R7, R8, R51): as the bytes it covers, as a range of the bits of a longer field,
and as what the encoder writes. The two directions of the codec follow (R71, R74). -/

namespace Sys2Proof.Machine

/-! ### MemRead and Bytes -/

/-- One byte more at the low end of an integer is that byte appended to its bits. -/
theorem ofNat_mul_256_add (w a : Nat) (c : Byte) :
    BitVec.ofNat (w + 8) (a * 256 + c.toNat) = BitVec.ofNat w a ++ c := by
  have hc : c.toNat < 2 ^ 8 := c.isLt
  have hmod : (a * 256 + c.toNat) % 2 ^ 8 = c.toNat := by omega
  have hdiv : (a * 256 + c.toNat) / 2 ^ 8 = a := by omega
  apply BitVec.eq_of_toNat_eq
  rw [BitVec.toNat_append, BitVec.toNat_ofNat, BitVec.toNat_ofNat, ← Nat.shiftLeft_add_eq_or_of_lt hc,
    Nat.shiftLeft_eq, Nat.pow_add, Nat.mul_comm (2 ^ w), Nat.mod_mul, hmod, hdiv, Nat.add_comm, Nat.mul_comm]

theorem memRead8_eq (b : List Byte) (o : Nat) : memRead8 b o = byteAt b o := by
  simp [memRead8, memRead]

theorem memRead16_eq (b : List Byte) (o : Nat) : memRead16 b o = byteAt b o ++ byteAt b (o + 1) := by
  rw [← memRead8_eq]
  exact ofNat_mul_256_add 8 _ _

theorem memRead32_eq (b : List Byte) (o : Nat) :
    memRead32 b o = byteAt b o ++ byteAt b (o + 1) ++ byteAt b (o + 2) ++ byteAt b (o + 3) := by
  rw [← memRead16_eq]
  calc memRead32 b o = BitVec.ofNat 24 (memRead b o 3) ++ byteAt b (o + 3) := ofNat_mul_256_add 24 _ _
    _ = _ := congrArg (· ++ byteAt b (o + 3)) (ofNat_mul_256_add 16 _ _)

theorem ofNat_memRead_toNat (b : List Byte) (o n : Nat) :
    (BitVec.ofNat (8 * n) (memRead b o n)).toNat = memRead b o n := by
  rw [BitVec.toNat_ofNat, Nat.pow_mul]
  exact Nat.mod_eq_of_lt (memRead_lt b o n)

/-- A field inside a longer one is a range of its bits: the `m` bytes before it are above the range, and the `k` bytes
after it are the `8 * k` bits below (R7). -/
theorem memRead_extractLsb' (b : List Byte) (o m n k : Nat) :
    (BitVec.ofNat (8 * (m + n + k)) (memRead b o (m + n + k))).extractLsb' (8 * k) (8 * n) =
      BitVec.ofNat (8 * n) (memRead b (o + m) n) := by
  have hdiv : memRead b o (m + n + k) / 256 ^ k = memRead b o m * 256 ^ n + memRead b (o + m) n := by
    rw [memRead_add, memRead_add, Nat.add_comm, Nat.add_mul_div_right _ _ (Nat.pow_pos (by decide)),
      Nat.div_eq_of_lt (memRead_lt ..), Nat.zero_add]
  apply BitVec.eq_of_toNat_eq
  rw [BitVec.extractLsb'_toNat, ofNat_memRead_toNat, ofNat_memRead_toNat, Nat.shiftRight_eq_div_pow, Nat.pow_mul,
    Nat.pow_mul, show 2 ^ 8 = 256 from rfl, hdiv, Nat.mul_add_mod_self_right, Nat.mod_eq_of_lt (memRead_lt ..)]

theorem frameInt_extractLsb' (b : List Byte) {o n k : Nat} (h : o + n + k = 103) :
    (frameInt b).extractLsb' (8 * k) (8 * n) = BitVec.ofNat (8 * n) (memRead b o n) := by
  have hF := memRead_extractLsb' b 0 o n k
  rwa [h, Nat.zero_add] at hF

/-- A read beyond a first part of the bytes is a read of the rest. -/
theorem memRead_append_right {xs : List Byte} (ys : List Byte) {o : Nat} (n : Nat) (h : xs.length ≤ o) :
    memRead (xs ++ ys) o n = memRead ys (o - xs.length) n := by
  induction n with
  | zero => rfl
  | succ n ih =>
    rw [memRead_succ, memRead_succ, ih, byteAt, byteAt, List.getD_append_right _ _ _ _ (by omega), Nat.sub_add_comm h]

theorem memRead8_append_right {xs : List Byte} (ys : List Byte) {o : Nat} (h : xs.length ≤ o) :
    memRead8 (xs ++ ys) o = memRead8 ys (o - xs.length) := by
  rw [memRead8, memRead_append_right ys 1 h, memRead8]

theorem memRead16_append_right {xs : List Byte} (ys : List Byte) {o : Nat} (h : xs.length ≤ o) :
    memRead16 (xs ++ ys) o = memRead16 ys (o - xs.length) := by
  rw [memRead16, memRead_append_right ys 2 h, memRead16]

theorem memRead32_append_right {xs : List Byte} (ys : List Byte) {o : Nat} (h : xs.length ≤ o) :
    memRead32 (xs ++ ys) o = memRead32 ys (o - xs.length) := by
  rw [memRead32, memRead_append_right ys 4 h, memRead32]

theorem bytesAt_append_right {xs : List Byte} (ys : List Byte) {o : Nat} (n : Nat) (h : xs.length ≤ o) :
    bytesAt (xs ++ ys) o n = bytesAt ys (o - xs.length) n := by
  rw [bytesAt, bytesAt, List.drop_append, List.drop_eq_nil_of_le h, List.nil_append]

theorem bytesAt_append_left {xs : List Byte} (ys : List Byte) {n : Nat} (h : xs.length = n) :
    bytesAt (xs ++ ys) 0 n = xs := List.take_left' h

/-- Two regions that meet are one region. -/
theorem bytesAt_append {b : List Byte} {o m o' n : Nat} (h : o' = o + m) :
    bytesAt b o m ++ bytesAt b o' n = bytesAt b o (m + n) := by
  rw [h, bytesAt, bytesAt, bytesAt, List.take_add, List.drop_drop]

theorem bytesAt_succ {b : List Byte} {o : Nat} (n : Nat) (h : o < b.length) :
    bytesAt b o (n + 1) = byteAt b o :: bytesAt b (o + 1) n := by
  rw [bytesAt, List.drop_eq_getElem_cons h, List.take_succ_cons, byteAt, List.getD_eq_getElem _ _ h, bytesAt]

theorem bytesAt_zero (b : List Byte) (o : Nat) : bytesAt b o 0 = [] := List.take_zero

/-! ### Writing a field and reading it back -/

@[simp] theorem length_put8 (v : BitVec 8) : (put8 v).length = 1 := by simp [put8]
@[simp] theorem length_put16 (v : BitVec 16) : (put16 v).length = 2 := by simp [put16]
@[simp] theorem length_put32 (v : BitVec 32) : (put32 v).length = 4 := by simp [put32]

theorem memRead8_put8 (v : BitVec 8) : memRead8 (put8 v) 0 = v := memRead8_eq _ _

theorem memRead8_put8_append (v : BitVec 8) (ys : List Byte) : memRead8 (put8 v ++ ys) 0 = v := memRead8_eq _ _

theorem memRead16_put16_append (v : BitVec 16) (ys : List Byte) : memRead16 (put16 v ++ ys) 0 = v := by
  rw [memRead16_eq]
  exact BitVec.extractLsb'_append_extractLsb'

theorem memRead32_put32_append (v : BitVec 32) (ys : List Byte) : memRead32 (put32 v ++ ys) 0 = v := by
  have hhi : v.extractLsb' 24 8 ++ v.extractLsb' 16 8 = v.extractLsb' 16 16 :=
    BitVec.extractLsb'_append_extractLsb'_eq_extractLsb' rfl
  have hmid : v.extractLsb' 16 16 ++ v.extractLsb' 8 8 = v.extractLsb' 8 24 :=
    BitVec.extractLsb'_append_extractLsb'_eq_extractLsb' rfl
  have hlo : v.extractLsb' 8 24 ++ v.extractLsb' 0 8 = v := BitVec.extractLsb'_append_extractLsb'
  rw [memRead32_eq]
  calc v.extractLsb' 24 8 ++ v.extractLsb' 16 8 ++ v.extractLsb' 8 8 ++ v.extractLsb' 0 8
      = v.extractLsb' 16 16 ++ v.extractLsb' 8 8 ++ v.extractLsb' 0 8 := by rw [hhi]
    _ = v.extractLsb' 8 24 ++ v.extractLsb' 0 8 := by rw [hmid]
    _ = v := hlo

/-! ### Reading a field and writing it back -/

variable {b : List Byte} {o : Nat}

theorem put8_memRead8 (h : o + 1 ≤ b.length) : put8 (memRead8 b o) = bytesAt b o 1 := by
  rw [bytesAt_succ 0 h, bytesAt_zero, memRead8_eq, put8]

theorem put16_memRead16 (h : o + 2 ≤ b.length) : put16 (memRead16 b o) = bytesAt b o 2 := by
  rw [bytesAt_succ 1 (by omega), bytesAt_succ 0 h, bytesAt_zero, ← memRead8_eq, ← memRead8_eq]
  exact congrArg₂ (fun x y => [x, y]) (memRead_extractLsb' b o 0 1 1) (memRead_extractLsb' b o 1 1 0)

theorem put32_memRead32 (h : o + 4 ≤ b.length) : put32 (memRead32 b o) = bytesAt b o 4 := by
  rw [bytesAt_succ 3 (by omega), bytesAt_succ 2 (by omega), bytesAt_succ 1 (by omega), bytesAt_succ 0 (by omega),
    bytesAt_zero, ← memRead8_eq, ← memRead8_eq, ← memRead8_eq, ← memRead8_eq]
  exact congrArg₂ (· ++ ·)
    (congrArg₂ (fun x y => [x, y]) (memRead_extractLsb' b o 0 1 3) (memRead_extractLsb' b o 1 1 2))
    (congrArg₂ (fun x y => [x, y]) (memRead_extractLsb' b o 2 1 1) (memRead_extractLsb' b o 3 1 0))

/-! ### A whole frame -/

theorem length_encodeFrame {r : RawFrame} {v : Reserved} (hr : r.wf) (hv : v.wf) : (encodeFrame r v).length = 103 := by
  obtain ⟨h0, h1, h2, h3, h4, h5, h6, h7, h8⟩ := hv
  unfold encodeFrame
  simp only [List.length_append, length_put8, length_put16, length_put32, hr, h0, h1, h2, h3, h4, h5, h6, h7, h8]

/-- Each field of an encoded frame is reached by passing over the fields before it, whose lengths are those of R71. -/
theorem frameOf_encodeFrame {r : RawFrame} {v : Reserved} (hr : r.wf) (hv : v.wf) : frameOf (encodeFrame r v) = r := by
  obtain ⟨h0, h1, h2, h3, h4, h5, h6, h7, h8⟩ := hv
  unfold encodeFrame
  simp [frameOf, memRead8_append_right, memRead16_append_right, memRead32_append_right, bytesAt_append_right,
    memRead8_put8, memRead8_put8_append, memRead16_put16_append, memRead32_put32_append, bytesAt_append_left,
    show r.serial.length = 16 from hr, h0, h1, h2, h3, h4, h5, h6, h7, h8]

/-- The fields and reserved regions of a frame, written one after another, join up to the whole of it (R52, R72). -/
theorem encodeFrame_frameOf (h : b.length = 103) : encodeFrame (frameOf b) (reservedOf b) = b := by
  have hwhole : bytesAt b 0 103 = b := by rw [← h]; exact List.take_length
  unfold encodeFrame
  simp only [frameOf, reservedOf, put8_memRead8, put16_memRead16, put32_memRead32, bytesAt_append, h, hwhole,
    Nat.reduceAdd, Nat.reduceLeDiff]

end Sys2Proof.Machine

namespace Sys2Proof.Proofs

open Sys2Proof.Machine

/-- Settles O42: DECODE leaves RF as `frameOf` of the bytes, and `frameOf` reads back what the encoder wrote. -/
theorem decodeReadsBackAnEncodedFrame : Obligations.DecodeReadsBackAnEncodedFrame := by
  intro r v hr hv
  refine ⟨length_encodeFrame hr hv, fun s t hc hw hp => ?_⟩
  have hframe := frameOf_encodeFrame hr hv
  refine ⟨_, execDecode_of_len_eq hc hw (length_encodeFrame hr hv) ?_, ?_, rfl, rfl⟩
  · rw [hframe, hp]
  · rw [hframe]

/-- Settles O43, by `encodeFrame_frameOf`. -/
theorem encodingTheFieldsRebuildsTheFrame : Obligations.EncodingTheFieldsRebuildsTheFrame :=
  fun _ h => encodeFrame_frameOf h

/-- Settles O18: in each clause the bytes before the field, of the field and after it are 103 together. -/
theorem everyIntegerFieldIsItsRangeOfTheFrameInteger :
    Obligations.EveryIntegerFieldIsItsRangeOfTheFrameInteger := by
  intro b
  have h8 (o k : Nat) (h : o + 1 + k = 103) : memRead8 b o = (frameInt b).extractLsb' (8 * k) 8 :=
    (frameInt_extractLsb' b h).symm
  have h16 (o k : Nat) (h : o + 2 + k = 103) : memRead16 b o = (frameInt b).extractLsb' (8 * k) 16 :=
    (frameInt_extractLsb' b h).symm
  have h32 (o k : Nat) (h : o + 4 + k = 103) : memRead32 b o = (frameInt b).extractLsb' (8 * k) 32 :=
    (frameInt_extractLsb' b h).symm
  exact ⟨h8 0 102 rfl, h8 1 101 rfl, h16 2 99 rfl, h32 4 95 rfl, h32 8 91 rfl, h8 12 90 rfl, h16 13 88 rfl,
    h16 31 70 rfl, h16 33 68 rfl, h16 35 66 rfl, h16 39 62 rfl, h16 41 60 rfl, h16 45 56 rfl, h16 51 50 rfl,
    h16 57 44 rfl, h16 59 42 rfl, h16 67 34 rfl, h16 69 32 rfl, h32 71 28 rfl, h16 79 22 rfl, h16 87 14 rfl,
    h16 91 10 rfl, h8 101 1 rfl, h8 102 0 rfl⟩

end Sys2Proof.Proofs
end

section
/-! SCALE of a u32 by 10 or 100 stays among the normal numbers (R93). -/

namespace Sys2Proof.Machine

/-- What lies less than half a divisor below `a` is not rounded to less than `a`. -/
theorem le_roundHalfEven {a n d : Nat} (hd : 0 < d) (h : 2 * a * d < 2 * n + d) : a ≤ roundHalfEven n d := by
  obtain ⟨hn, -, -⟩ := roundHalfEven_spec n d hd
  have hlt : 2 * a * d < (2 * roundHalfEven n d + 2) * d := by linarith
  have := Nat.lt_of_mul_lt_mul_right hlt
  omega

/-- What lies less than half a divisor above `a` is not rounded to more than `a`. -/
theorem roundHalfEven_le_of_lt {a n d : Nat} (hd : 0 < d) (h : 2 * n < 2 * a * d + d) : roundHalfEven n d ≤ a := by
  obtain ⟨-, hn, -⟩ := roundHalfEven_spec n d hd
  have hlt : 2 * roundHalfEven n d * d < (2 * a + 2) * d := by linarith
  have := Nat.lt_of_mul_lt_mul_right hlt
  omega

/-- The pattern of a scaled u32 other than 0 as its exponent part and its significand: `k` places of the exact quotient
in units of `2 ^ -(l + 53)` are rounded off, at most 32 because the quotient is below `2 ^ 32`, and the significand has
53 bits or is the next power of two (R170, R92). -/
theorem scale_toNat {raw d l : Nat} (hr : 0 < raw) (hr' : raw < 2 ^ 32) (hd : 0 < d) (hd' : d < 2 ^ 32)
    (hl : d.log2 = l) :
    ∃ k ≤ 32,
      (scale raw d).toNat = (1021 + k - l) * 2 ^ 52 + roundHalfEven (raw * 2 ^ (l + 53)) (d * 2 ^ k) ∧
      2 ^ 52 ≤ roundHalfEven (raw * 2 ^ (l + 53)) (d * 2 ^ k) ∧
      roundHalfEven (raw * 2 ^ (l + 53)) (d * 2 ^ k) ≤ 2 ^ 53 := by
  obtain ⟨hlo, hhi⟩ := rne64_quotient_bounds raw d hr hd
  have hscale := scale_eq hr hr' hd hd' rfl rfl
  have hdl : 2 ^ l ≤ d := hl ▸ Nat.log2_self_le hd.ne'
  have hl32 : l < 32 := hl ▸ (Nat.log2_lt hd.ne').mpr hd'
  rw [hl] at hlo hhi hscale
  generalize (raw * 2 ^ (l + 53) / d).log2 - 52 = k at hlo hhi hscale
  have hpos : 0 < d * 2 ^ k := Nat.mul_pos hd (Nat.two_pow_pos k)
  have hk : k ≤ 32 := by
    have hpow : 2 ^ (52 + l + k) < 2 ^ (32 + (l + 53)) := calc
      2 ^ (52 + l + k) = 2 ^ 52 * (2 ^ l * 2 ^ k) := by ring
      _ ≤ 2 ^ 52 * (d * 2 ^ k) := by gcongr
      _ ≤ raw * 2 ^ (l + 53) := hlo
      _ < 2 ^ 32 * 2 ^ (l + 53) := by gcongr
      _ = 2 ^ (32 + (l + 53)) := by ring
    have := (Nat.pow_lt_pow_iff_right (by decide)).mp hpow
    omega
  have hge : 2 ^ 52 ≤ roundHalfEven (raw * 2 ^ (l + 53)) (d * 2 ^ k) := le_roundHalfEven hpos (by linarith)
  have hle : roundHalfEven (raw * 2 ^ (l + 53)) (d * 2 ^ k) ≤ 2 ^ 53 := roundHalfEven_le_of_lt hpos (by linarith)
  have hfits : (1021 + k - l) * 2 ^ 52 + roundHalfEven (raw * 2 ^ (l + 53)) (d * 2 ^ k) < 2 ^ 64 := by omega
  refine ⟨k, hk, ?_, hge, hle⟩
  rw [hscale, show 1074 + k - (l + 53) = 1021 + k - l by omega, BitVec.toNat_ofNat]
  exact Nat.mod_eq_of_lt hfits

end Sys2Proof.Machine

namespace Sys2Proof.Proofs

open Sys2Proof.Machine

/-- Settles O24: by the number `k` of places rounded off. Only raw / 100 with `k = 0` comes near the lower bound and only
raw / 10 with `k = 32` near the upper one, and there the significand is bounded by the rounding; in the other cases the
exponent decides. -/
theorem scaleStaysInTheNormalRange : Obligations.ScaleStaysInTheNormalRange := by
  intro raw d hd
  constructor
  · rintro rfl
    rfl
  · intro hraw
    have hpos : 0 < raw.toNat := by bv_omega
    have hlt : raw.toNat < 2 ^ 32 := raw.isLt
    obtain rfl | rfl := hd
    · obtain ⟨k, hk, hscale, hlo, hhi⟩ := scale_toNat hpos hlt (d := 10) (l := 3) (by decide) (by decide) (by decide)
      rw [hscale]
      refine ⟨by omega, ?_⟩
      obtain hk | rfl : k < 32 ∨ k = 32 := by omega
      · omega
      · have hsig : roundHalfEven (raw.toNat * 2 ^ (3 + 53)) (10 * 2 ^ 32) ≤ 0x19999999800000 :=
          roundHalfEven_le_of_lt (by decide) (by omega)
        omega
    · obtain ⟨k, hk, hscale, hlo, hhi⟩ := scale_toNat hpos hlt (d := 100) (l := 6) (by decide) (by decide) (by decide)
      rw [hscale]
      refine ⟨?_, by omega⟩
      obtain rfl | hk : k = 0 ∨ 0 < k := by omega
      · have hsig : 0x147AE147AE147B ≤ roundHalfEven (raw.toNat * 2 ^ (6 + 53)) (100 * 2 ^ 0) :=
          le_roundHalfEven (by decide) (by omega)
        omega
      · omega

end Sys2Proof.Proofs
end

section
/-! The rows of STATUS16 run one after another (R83, R212, log entry 10). -/

namespace Sys2Proof.Machine

/-- A STATUS16 row as an operation, by its condition and its label. -/
def statusRow (row : (BitVec 16 → Power → Bool) × Label) (s : State) : Result :=
  onRecord s fun r c => if row.1 r.status c.pnowW then { c with status := row.2 } else c

/-- The five rows in the order of R83. -/
def statusRows : List ((BitVec 16 → Power → Bool) × Label) :=
  [(hitsOff, .off), (fun code _ => hitsReady code, .ready), (hitsGenerating, .generating),
    (fun code _ => hitsNogrid code, .noGrid), (fun code _ => hitsUnknown code, .unknown)]

theorem statusRows_map_statusRow :
    statusRows.map statusRow = [exec .statusOff, exec .statusReady, exec .statusGenerating, exec .statusNogrid,
      exec .statusUnknown] := rfl

/-- The conditions of the five rows exclude each other and cover every code, so the label of the one row that hits stands
at the end. -/
theorem statusRows_foldl (code : BitVec 16) (power : Power) (l : Label) :
    statusRows.foldl (fun l row => if row.1 code power then row.2 else l) l = statusLabel code power := by
  simp only [statusRows, List.foldl, statusLabel, statmap, hitsOff, hitsReady, hitsGenerating, hitsNogrid, hitsUnknown]
  by_cases hready : code = 0#16
  · simp [hready]
  by_cases hgen : code = 3#16
  · by_cases hzero : power = 0#Config.pWidth
    · simp [hgen, hzero]
    · simp [hgen, hzero]
  by_cases hnogrid : code = 0x1015#16
  · simp [hnogrid]
  · simp [hready, hgen, hnogrid]

variable {s : State} {d : Delivery} {r : RawFrame} {c : InverterRecord}

theorem statusRow_eq_next (row : (BitVec 16 → Power → Bool) × Label) (hc : s.cur = some d) (hr : s.rf = some r)
    (hrc : s.rc = some c) : statusRow row s = .next { s with
      rc := some { c with status := if row.1 r.status c.pnowW then row.2 else c.status } } := by
  rw [statusRow, onRecord_eq_next hc hr hrc]
  split <;> rfl

theorem runStages_statusRow (rows : List ((BitVec 16 → Power → Bool) × Label)) (hc : s.cur = some d)
    (hr : s.rf = some r) (hrc : s.rc = some c) : runStages (rows.map statusRow) s = .next { s with
      rc := some { c with
        status := rows.foldl (fun l row => if row.1 r.status c.pnowW then row.2 else l) c.status } } := by
  induction rows generalizing s c with
  | nil => rw [List.foldl_nil, ← hrc]; rfl
  | cons row rows ih =>
    rw [List.map_cons, runStages_cons_of_cur (statusRow_eq_next row hc hr hrc) (by simp [hc])]
    exact ih (s := { s with rc := some _ }) (c := { c with status := _ }) hc hr rfl

/-- Whether a converter or status operation completes does not depend on what it writes. -/
theorem onRecord_refused_or_ready (s : State) :
    (∃ reason, ∀ f, onRecord s f = .refused reason) ∨ ∃ d r c, s.cur = some d ∧ s.rf = some r ∧ s.rc = some c := by
  cases hc : s.cur with
  | none => exact .inl ⟨.noDelivery, fun f => by simp [onRecord, hc]⟩
  | some d =>
    cases hr : s.rf with
    | none => exact .inl ⟨.noFrame, fun f => by simp [onRecord, hc, hr]⟩
    | some r =>
      cases hrc : s.rc with
      | none => exact .inl ⟨.noRecord, fun f => by simp [onRecord, hc, hr, hrc]⟩
      | some c => exact .inr ⟨d, r, c, rfl, rfl, rfl⟩

theorem runStages_cons_of_refused {f : State → Result} (fs : List (State → Result)) {reason : Refusal}
    (h : f s = .refused reason) : runStages (f :: fs) s = .refused reason := by
  simp [runStages, h]

end Sys2Proof.Machine

namespace Sys2Proof.Proofs

open Sys2Proof.Machine

/-- Settles O31: without the records the first row is refused as STATUS is; with them the rows leave the label of the row
that hits, which is STATUS's. -/
theorem statusIsTheFirstHitOfItsRows : Obligations.StatusIsTheFirstHitOfItsRows := by
  intro s
  obtain ⟨reason, hrefused⟩ | ⟨d, r, c, hc, hr, hrc⟩ := onRecord_refused_or_ready s
  · exact (runStages_cons_of_refused _ (hrefused _)).trans (hrefused _).symm
  · rw [← statusRows_map_statusRow, runStages_statusRow statusRows hc hr hrc, statusRows_foldl]
    exact (execStatus_eq_next hc hr hrc).symm

end Sys2Proof.Proofs
end

section
/-! Which bytes of a 103-byte delivery its event can depend on (R76 to R80). -/

namespace Sys2Proof.Machine

/-- The offsets of LEN and of the fields that R82 converts. -/
def resultOffsets : List Nat :=
  [1, 31, 32, 33, 34, 35, 36, 39, 40, 41, 42, 45, 46, 51, 52, 57, 58, 59, 60, 67, 68, 69, 70, 71, 72, 73, 74, 79, 80,
    87, 88, 91, 92]

variable {b b' : List Byte}

theorem recordOf_frameOf_congr (h : ∀ i ∈ resultOffsets, byteAt b i = byteAt b' i) :
    recordOf (frameOf b) = recordOf (frameOf b') := by
  have h16 (o : Nat) (h₀ : o ∈ resultOffsets) (h₁ : o + 1 ∈ resultOffsets) : memRead16 b o = memRead16 b' o := by
    rw [memRead16_eq, memRead16_eq, h o h₀, h (o + 1) h₁]
  have htotal : memRead32 b 71 = memRead32 b' 71 := by
    rw [memRead32_eq, memRead32_eq, h 71 (by decide), h 72 (by decide), h 73 (by decide), h 74 (by decide)]
  simp (disch := decide) only [recordOf, frameOf, h16, htotal]

theorem resultEvent_congr (c : Config) (t : Nat) (hl : b.length = b'.length) (hw : b.length = c.wireLen)
    (h : ∀ i ∈ resultOffsets, byteAt b i = byteAt b' i) : resultEvent c ⟨t, b⟩ = resultEvent c ⟨t, b'⟩ := by
  have hlen : (frameOf b).len = (frameOf b').len := by
    simp only [frameOf, memRead8_eq]
    exact h 1 (by decide)
  simp [resultEvent, wireLenOk, ← hl, hw, hlen, recordOf_frameOf_congr h]

/-- Two deliveries of 103 bytes that agree at `resultOffsets`, under one tag and CONFIG, give one event. -/
theorem process_same_event {s s' : State} {t : Nat} (hs : s.Inv) (hs' : s'.Inv) (hconfig : s.config = s'.config)
    (hl : b.length = 103) (hl' : b'.length = 103) (h : ∀ i ∈ resultOffsets, byteAt b i = byteAt b' i)
    (hb : Memory.bytes? s.pending t = some b) (hb' : Memory.bytes? s'.pending t = some b') :
    ∃ (u u' : State) (e : Event), exec (.process t) s = .next u ∧ exec (.process t) s' = .next u' ∧
      u.out = s.out ++ [e] ∧ u'.out = s'.out ++ [e] := by
  obtain ⟨hw, ⟨hc, -⟩, -⟩ := hs
  obtain ⟨hw', ⟨hc', -⟩, -⟩ := hs'
  refine ⟨_, _, resultEvent s.config ⟨t, b⟩, execProcess_eq_next hc hw hb, execProcess_eq_next hc' hw' hb', rfl, ?_⟩
  rw [resultEvent_congr s.config t (hl.trans hl'.symm) (hl.trans hw.symm) h, hconfig]
  rfl

end Sys2Proof.Machine

namespace Sys2Proof.Proofs

open Sys2Proof.Machine

/-- Settles O39: no offset that the event depends on lies in a reserved region. -/
theorem reservedBytesNeverChangeAResult : Obligations.ReservedBytesNeverChangeAResult := by
  intro s s' t b b' hs hs' hconfig hl hl' hagree hb hb'
  refine process_same_event hs hs' hconfig hl hl' (fun i hi => ?_) hb hb'
  have hout : ∀ i ∈ resultOffsets, i < 103 ∧ ¬ (37 ≤ i ∧ i ≤ 38) ∧ ¬ (43 ≤ i ∧ i ≤ 44) ∧ ¬ (47 ≤ i ∧ i ≤ 50) ∧
      ¬ (53 ≤ i ∧ i ≤ 56) ∧ ¬ (61 ≤ i ∧ i ≤ 66) ∧ ¬ (75 ≤ i ∧ i ≤ 78) ∧ ¬ (81 ≤ i ∧ i ≤ 86) ∧ ¬ (89 ≤ i ∧ i ≤ 90) ∧
      ¬ (93 ≤ i ∧ i ≤ 100) := by decide
  exact hagree i (hout i hi).1 (hout i hi).2

/-- Settles O40: after DECODE the fields are their bytes, and no offset that the event depends on lies in one of them. -/
theorem opaqueAndUncheckedFieldsNeverReachTheResult : Obligations.OpaqueAndUncheckedFieldsNeverReachTheResult := by
  constructor
  · intro s d hc hw hl hlen
    have hlen' : (frameOf d.bytes).len = s.config.payloadLen := (memRead8_eq _ _).trans hlen
    exact ⟨_, frameOf d.bytes, execDecode_of_len_eq hc hw hl hlen', rfl, rfl, memRead16_eq _ 2, memRead32_eq _ 4,
      memRead32_eq _ 8, memRead8_eq _ 12, memRead16_eq _ 13, rfl, memRead8_eq _ 101, memRead8_eq _ 102⟩
  · intro s s' t b b' hs hs' hconfig hl hl' hagree hb hb'
    refine process_same_event hs hs' hconfig hl hl' (fun i hi => ?_) hb hb'
    have hout : ∀ i ∈ resultOffsets, i < 103 ∧ ¬ (2 ≤ i ∧ i ≤ 3) ∧ ¬ (4 ≤ i ∧ i ≤ 7) ∧ ¬ (8 ≤ i ∧ i ≤ 11) ∧
        ¬ (12 ≤ i ∧ i ≤ 12) ∧ ¬ (13 ≤ i ∧ i ≤ 14) ∧ ¬ (15 ≤ i ∧ i ≤ 30) ∧ ¬ (101 ≤ i ∧ i ≤ 101) ∧
        ¬ (102 ≤ i ∧ i ≤ 102) := by decide
    exact hagree i (hout i hi).1 (hout i hi).2

end Sys2Proof.Proofs
end

section
/-! The tables of codes and offsets (R71, R72, R84 to R87), and the operations that change nothing. -/

namespace Sys2Proof.Proofs

open Sys2Proof.Machine

/-- Settles O1, by evaluating the decoder at each of the four codes. -/
theorem hostopCodesDecode : Obligations.HostopCodesDecode := fun _ => ⟨rfl, rfl, rfl, rfl⟩

/-- Settles O2, by evaluating the closed table. -/
theorem frame103TableTilesTheFrame : Obligations.Frame103TableTilesTheFrame := by
  unfold Obligations.Frame103TableTilesTheFrame
  decide

/-- Settles O11: each of the ten operations answers the state it was given. -/
theorem noneAndSkipsChangeNothing : Obligations.NoneAndSkipsChangeNothing := by
  intro s i hi
  fin_cases hi <;> rfl

/-- Settles O33, by evaluating the code and string of each label and the code of each error. -/
theorem labelAndErrorCodes : Obligations.LabelAndErrorCodes :=
  ⟨rfl, rfl, rfl, rfl, rfl, rfl, rfl, rfl, rfl, rfl, fun _ _ => rfl, fun _ => rfl⟩

end Sys2Proof.Proofs
end

section
/-! The frame decoder (R120 to R157): what each EXTRACT writes to RF, and what LENCHK and DECODE answer. -/

namespace Sys2Proof.Machine

variable {b : List Byte} {o n i : Nat}

theorem length_bytesAt (h : o + n ≤ b.length) : (bytesAt b o n).length = n := by
  rw [bytesAt, List.length_take, List.length_drop]
  omega

theorem getElem?_bytesAt (h : i < n) : (bytesAt b o n)[i]? = b[o + i]? := by
  rw [bytesAt, List.getElem?_take_of_lt h, List.getElem?_drop]

end Sys2Proof.Machine

namespace Sys2Proof.Proofs

open Sys2Proof.Machine

/-- Settles O21, by the three ways DECODE ends. -/
theorem decodeIsOneFunctionOfTheBytes : Obligations.DecodeIsOneFunctionOfTheBytes := by
  intro s d hc hw
  refine ⟨fun hl => ?_, fun hl hlen => ?_, fun hl hlen => ?_⟩
  · exact execDecode_of_length_ne hc hw hl
  · exact execDecode_of_len_ne hc hw hl hlen
  · exact execDecode_of_len_eq hc hw hl hlen

/-- Settles O16: each operation is that of a FRAME103 row, and MemRead of four bytes is their concatenation. -/
theorem extractFourByteFields : Obligations.ExtractFourByteFields := by
  intro s d r hc hr hl
  have hrow {i : Instr} (hi : i ∈ frameRows.map FrameRow.op) := exec_frameRow hi hc hr hl
  have hbytes := memRead32_eq d.bytes
  rw [← hbytes 4, ← hbytes 8, ← hbytes 71]
  exact ⟨hrow (by decide), hrow (by decide), hrow (by decide)⟩

/-- Settles O14: each operation is that of a FRAME103 row, and MemRead of one byte is that byte. -/
theorem extractOneByteFields : Obligations.ExtractOneByteFields := by
  intro s d r hc hr hl
  have hrow {i : Instr} (hi : i ∈ frameRows.map FrameRow.op) := exec_frameRow hi hc hr hl
  simp only [← memRead8_eq]
  exact ⟨hrow (by decide), hrow (by decide), hrow (by decide), hrow (by decide), hrow (by decide)⟩

/-- Settles O17: the operation is that of a FRAME103 row, and the bytes 15 to 30 are all inside the frame. -/
theorem extractSerialKeepsTheSixteenBytes : Obligations.ExtractSerialKeepsTheSixteenBytes := by
  intro s d r hc hr hl
  refine ⟨?_, ?_, fun i hi => ?_⟩
  · exact exec_frameRow (i := .extractSerial) (by decide) hc hr hl
  · exact length_bytesAt (by omega)
  · exact getElem?_bytesAt hi

/-- Settles O20, by the two outcomes of LENCHK. -/
theorem lenchkComparesTheDeclaredLength : Obligations.LenchkComparesTheDeclaredLength := by
  intro s d r hc hr
  constructor
  · exact fun hlen => execLenchk_eq_next hc hr hlen
  · exact fun hlen => execLenchk_eq_raise hc hr hlen

end Sys2Proof.Proofs
end

section
/-! SCALE gives the binary64 nearest the exact quotient (R170, R171): the patterns as counts of units of `2 ^ -1074`, and
the rounded quotient as the nearest whole number. -/

namespace Sys2Proof.Machine

/-! ### Rounding a quotient -/

/-- No whole number is nearer to `n / d` than the rounded quotient, and where another is as near it is even. -/
theorem roundHalfEven_nearest (n m : Nat) {d : Nat} (hd : 0 < d) :
    ((roundHalfEven n d * d : Nat) - n : Int).natAbs ≤ ((m * d : Nat) - n : Int).natAbs ∧
      (((roundHalfEven n d * d : Nat) - n : Int).natAbs = ((m * d : Nat) - n : Int).natAbs →
        m = roundHalfEven n d ∨ roundHalfEven n d % 2 = 0) := by
  obtain ⟨hlo, hhi, htie⟩ := roundHalfEven_spec n d hd
  generalize roundHalfEven n d = r at hlo hhi htie ⊢
  rw [Nat.mul_assoc] at hlo hhi htie
  obtain hlt | rfl | hgt := Nat.lt_trichotomy m r
  · have : (m + 1) * d ≤ r * d := Nat.mul_le_mul_right d hlt
    rw [Nat.succ_mul] at this
    omega
  · simp
  · have : (r + 1) * d ≤ m * d := Nat.mul_le_mul_right d hgt
    rw [Nat.succ_mul] at this
    omega

theorem roundHalfEven_mul_right (n d : Nat) {c : Nat} (hc : 0 < c) :
    roundHalfEven (n * c) (d * c) = roundHalfEven n d := by
  have hlt (a b : Nat) : a * c < b * c ↔ a < b := Nat.mul_lt_mul_right hc
  simp only [roundHalfEven, Nat.mul_div_mul_right _ _ hc, Nat.mul_mod_mul_right, ← Nat.mul_assoc, hlt]

/-! ### Patterns as counts of units -/

/-- The biased exponent of a pattern, bits 62 to 52 (R92). -/
def biasedExponent (x : Binary64) : Nat := x.toNat / 2 ^ 52 % 2 ^ 11

/-- A number with biased exponent `e + 1` is its 53-bit significand in units of `2 ^ e`. -/
theorem binary64Units_of_exponent {x : Binary64} {e : Nat} (he : biasedExponent x = e + 1) :
    binary64Units x = (2 ^ 52 + x.toNat % 2 ^ 52) * 2 ^ e := by
  unfold biasedExponent at he
  simp only [binary64Units, he, Nat.add_one_ne_zero, if_false, Nat.add_sub_cancel]

theorem binary64Units_of_exponent_zero {x : Binary64} (he : biasedExponent x = 0) :
    binary64Units x = x.toNat % 2 ^ 52 := by
  unfold biasedExponent at he
  simp only [binary64Units, he, if_true]

/-- A number with biased exponent `e` is below `2 ^ (52 + e)` units. -/
theorem binary64Units_lt (x : Binary64) : binary64Units x < 2 ^ 52 * 2 ^ biasedExponent x := by
  have hf : x.toNat % 2 ^ 52 < 2 ^ 52 := Nat.mod_lt _ (by decide)
  cases he : biasedExponent x with
  | zero => simpa [binary64Units_of_exponent_zero he] using hf
  | succ e =>
    rw [binary64Units_of_exponent he]
    calc (2 ^ 52 + x.toNat % 2 ^ 52) * 2 ^ e < (2 * 2 ^ 52) * 2 ^ e :=
          Nat.mul_lt_mul_of_pos_right (by omega) (Nat.two_pow_pos e)
      _ = 2 ^ 52 * 2 ^ (e + 1) := by ring

/-- A number with a smaller biased exponent is the smaller number. -/
theorem binary64Units_lt_of_exponent_lt {x y : Binary64}
    (h : biasedExponent x < biasedExponent y) : binary64Units x < binary64Units y := by
  obtain ⟨e, he⟩ : ∃ e, biasedExponent y = e + 1 := ⟨_, (Nat.succ_pred_eq_of_pos (by omega)).symm⟩
  calc binary64Units x < 2 ^ 52 * 2 ^ biasedExponent x := binary64Units_lt x
    _ ≤ 2 ^ 52 * 2 ^ e := by gcongr <;> omega
    _ ≤ (2 ^ 52 + y.toNat % 2 ^ 52) * 2 ^ e := Nat.mul_le_mul_right _ (Nat.le_add_right ..)
    _ = binary64Units y := (binary64Units_of_exponent he).symm

/-- Two patterns with sign 0 and the same count of units are the same pattern. -/
theorem binary64Units_inj {x y : Binary64} (hx : x.toNat < 2 ^ 63) (hy : y.toNat < 2 ^ 63)
    (h : binary64Units x = binary64Units y) : x = y := by
  have hexp : biasedExponent x = biasedExponent y := by
    obtain hlt | heq | hgt := Nat.lt_trichotomy (biasedExponent x) (biasedExponent y)
    · exact absurd h (binary64Units_lt_of_exponent_lt hlt).ne
    · exact heq
    · exact absurd h (binary64Units_lt_of_exponent_lt hgt).ne'
  have hfrac : x.toNat % 2 ^ 52 = y.toNat % 2 ^ 52 := by
    cases he : biasedExponent x with
    | zero => rwa [binary64Units_of_exponent_zero he, binary64Units_of_exponent_zero (hexp ▸ he)] at h
    | succ e =>
      rw [binary64Units_of_exponent he, binary64Units_of_exponent (hexp ▸ he)] at h
      exact Nat.add_left_cancel (Nat.eq_of_mul_eq_mul_right (Nat.two_pow_pos e) h)
  unfold biasedExponent at hexp
  exact BitVec.eq_of_toNat_eq (by omega)

/-- A pattern given as `e` binades and a significand of 53 bits, or one that rounding carried to the next power of two,
is that significand in units of `2 ^ e`. -/
theorem binary64Units_of_toNat {x : Binary64} {e r : Nat} (hx : x.toNat = e * 2 ^ 52 + r) (hlo : 2 ^ 52 ≤ r)
    (hhi : r ≤ 2 ^ 53) (he : e < 2045) : binary64Units x = r * 2 ^ e := by
  obtain hlt | rfl := Nat.lt_or_eq_of_le hhi
  · rw [binary64Units_of_exponent (e := e) (by unfold biasedExponent; omega), show 2 ^ 52 + x.toNat % 2 ^ 52 = r by omega]
  · rw [binary64Units_of_exponent (e := e + 1) (by unfold biasedExponent; omega), show x.toNat % 2 ^ 52 = 0 by omega]
    ring

/-- From `2 ^ (52 + e)` units on, every binary64 is a multiple of `2 ^ e` units. -/
theorem binary64Units_lt_or_eq_mul (x : Binary64) (e : Nat) :
    binary64Units x < 2 ^ 52 * 2 ^ e ∨ ∃ m, binary64Units x = m * 2 ^ e := by
  by_cases hle : biasedExponent x ≤ e
  · exact .inl (Nat.lt_of_lt_of_le (binary64Units_lt x) (by gcongr; decide))
  · obtain ⟨j, hj⟩ : ∃ j, biasedExponent x = e + j + 1 := ⟨biasedExponent x - e - 1, by omega⟩
    refine .inr ⟨(2 ^ 52 + x.toNat % 2 ^ 52) * 2 ^ j, ?_⟩
    rw [binary64Units_of_exponent hj, Nat.pow_add]
    ring

/-! ### The pattern of SCALE -/

theorem scale_zero (d : Nat) : scale 0 d = 0 := rfl

/-- SCALE rounds the exact quotient to a whole number of units of `2 ^ e`, where `e` is the binade that holds the
quotient (R170). -/
theorem scale_binade {raw d : Nat} (hr : 0 < raw) (hr' : raw < 2 ^ 32) (hd : 0 < d) (hd' : d < 2 ^ 32) :
    ∃ e < 1054, 2 ^ 52 * (d * 2 ^ e) ≤ raw * 2 ^ 1074 ∧ raw * 2 ^ 1074 < 2 ^ 53 * (d * 2 ^ e) ∧
      scale raw d = BitVec.ofNat 64 (e * 2 ^ 52 + roundHalfEven (raw * 2 ^ 1074) (d * 2 ^ e)) := by
  obtain ⟨hlo, hhi⟩ := rne64_quotient_bounds raw d hr hd
  have hscale := scale_eq hr hr' hd hd' rfl rfl
  have hlog : d.log2 < 32 := (Nat.log2_lt hd.ne').mpr hd'
  generalize (raw * 2 ^ (d.log2 + 53) / d).log2 - 52 = k at hlo hhi hscale
  generalize ht : 1074 = t at hscale ⊢
  obtain ⟨j, hj⟩ : ∃ j, d.log2 + 53 + j = t := Nat.le.dest (by omega)
  have hpos : 0 < 2 ^ j := Nat.two_pow_pos j
  have hn : raw * 2 ^ t = raw * 2 ^ (d.log2 + 53) * 2 ^ j := by rw [← hj, Nat.pow_add, Nat.mul_assoc]
  have hunit : d * 2 ^ (k + j) = d * 2 ^ k * 2 ^ j := by rw [Nat.pow_add, Nat.mul_assoc]
  have hlo' : 2 ^ 52 * (d * 2 ^ (k + j)) ≤ raw * 2 ^ t := by
    rw [hn, hunit, ← Nat.mul_assoc (2 ^ 52)]
    exact Nat.mul_le_mul_right _ hlo
  have hhi' : raw * 2 ^ t < 2 ^ 53 * (d * 2 ^ (k + j)) := by
    rw [hn, hunit, ← Nat.mul_assoc (2 ^ 53)]
    exact Nat.mul_lt_mul_of_pos_right hhi hpos
  have hbound : 2 ^ (52 + (k + j)) < 2 ^ (32 + t) := calc
    2 ^ (52 + (k + j)) = 2 ^ 52 * 2 ^ (k + j) := Nat.pow_add ..
    _ ≤ 2 ^ 52 * (d * 2 ^ (k + j)) := Nat.mul_le_mul_left _ (Nat.le_mul_of_pos_left _ hd)
    _ ≤ raw * 2 ^ t := hlo'
    _ < 2 ^ 32 * 2 ^ t := Nat.mul_lt_mul_of_pos_right hr' (Nat.two_pow_pos _)
    _ = 2 ^ (32 + t) := (Nat.pow_add ..).symm
  have hexp := (Nat.pow_lt_pow_iff_right (by decide)).mp hbound
  refine ⟨k + j, by omega, hlo', hhi', ?_⟩
  rw [hn, hunit, roundHalfEven_mul_right _ _ hpos, hscale, show t + k - (d.log2 + 53) = k + j by omega]

/-- The distance of a binary64 from the exact quotient `raw / d`, in units of `2 ^ -1074 / d`. -/
def quotientError (raw d : Nat) (y : Binary64) : Nat := ((binary64Units y : Int) * d - raw * 2 ^ 1074).natAbs

theorem quotientError_eq (raw d : Nat) (y : Binary64) :
    quotientError raw d y = ((binary64Units y * d : Nat) - (raw * 2 ^ 1074 : Nat) : Int).natAbs := by
  simp only [quotientError, Nat.cast_mul, Nat.cast_pow, Nat.cast_ofNat]

/-- Raw 0 is converted exactly. -/
theorem quotientError_scale_zero (d : Nat) : quotientError 0 d (scale 0 d) = 0 := by
  have hunits : binary64Units 0 = 0 := rfl
  rw [quotientError_eq, scale_zero, hunits, Nat.zero_mul, Nat.zero_mul]
  rfl

/-- No pattern with sign 0 is nearer to the exact quotient than SCALE, and where another is as near the significand of SCALE
is even: below the binade of the quotient every number is farther away than the binade's first, and from there on a
number is a whole number of the units in which SCALE rounds. -/
theorem scale_nearest {raw d : Nat} (hr' : raw < 2 ^ 32) (hd : 0 < d) (hd' : d < 2 ^ 32) {x : Binary64}
    (hx : x.toNat < 2 ^ 63) :
    quotientError raw d (scale raw d) ≤ quotientError raw d x ∧
      (quotientError raw d (scale raw d) = quotientError raw d x →
        x = scale raw d ∨ (scale raw d).toNat % 2 = 0) := by
  obtain rfl | hr := Nat.eq_zero_or_pos raw
  · rw [quotientError_scale_zero, scale_zero]
    exact ⟨Nat.zero_le _, fun _ => .inr rfl⟩
  obtain ⟨e, he, hlo, hhi, hscale⟩ := scale_binade hr hr' hd hd'
  have hpos : 0 < d * 2 ^ e := Nat.mul_pos hd (Nat.two_pow_pos e)
  have hnear (m : Nat) := roundHalfEven_nearest (raw * 2 ^ 1074) m hpos
  rw [quotientError_eq, quotientError_eq]
  generalize raw * 2 ^ 1074 = n at *
  have hge : 2 ^ 52 ≤ roundHalfEven n (d * 2 ^ e) := le_roundHalfEven hpos (by linarith)
  have hle : roundHalfEven n (d * 2 ^ e) ≤ 2 ^ 53 := roundHalfEven_le_of_lt hpos (by linarith)
  generalize roundHalfEven n (d * 2 ^ e) = r at *
  have htoNat : (scale raw d).toNat = e * 2 ^ 52 + r := by
    have hfits : e * 2 ^ 52 + r < 2 ^ 64 := by omega
    rw [hscale, BitVec.toNat_ofNat]
    exact Nat.mod_eq_of_lt hfits
  have hunits : binary64Units (scale raw d) = r * 2 ^ e := binary64Units_of_toNat htoNat hge hle (by omega)
  have hmul (m : Nat) : m * 2 ^ e * d = m * (d * 2 ^ e) := by ring
  rw [hunits, hmul]
  obtain hlt | ⟨m, hm⟩ := binary64Units_lt_or_eq_mul x e
  · have hbelow : binary64Units x * d < 2 ^ 52 * (d * 2 ^ e) := hmul (2 ^ 52) ▸ Nat.mul_lt_mul_of_pos_right hlt hd
    obtain ⟨hfirst, -⟩ := hnear (2 ^ 52)
    omega
  · rw [hm, hmul]
    obtain ⟨hmin, htie⟩ := hnear m
    refine ⟨hmin, fun heq => ?_⟩
    obtain rfl | heven := htie heq
    · exact .inl (binary64Units_inj hx (by omega) (hm.trans hunits.symm))
    · exact .inr (by omega)

end Sys2Proof.Machine

namespace Sys2Proof.Proofs

open Sys2Proof.Machine

/-- Settles O23, by the nearest pattern: a pattern below that of infinity has sign 0. -/
theorem scaleIsTheNearestBinary64 : Obligations.ScaleIsTheNearestBinary64 := by
  intro raw d hd x hx
  exact scale_nearest raw.isLt (by omega) (by omega) (by omega)

end Sys2Proof.Proofs
end

section
/-! The unit converter (R172 to R186): what each CONV and the whole of CONVERT write to REC. -/

namespace Sys2Proof.Machine

/-- The corrected power of a u16 is at most `floor(65535 × √3)` (R94). -/
theorem isqrt_three_mul_sq_le (raw : BitVec 16) : isqrt (3 * raw.toNat * raw.toNat) ≤ 113509 := by
  obtain ⟨hsq, -⟩ := isqrt_spec (3 * raw.toNat * raw.toNat)
  have hraw : raw.toNat ≤ 65535 := by omega
  by_contra hgt
  have hbig : 113510 * 113510 ≤ 3 * 65535 * 65535 := calc
    113510 * 113510 ≤ isqrt (3 * raw.toNat * raw.toNat) * isqrt (3 * raw.toNat * raw.toNat) :=
      Nat.mul_le_mul (by omega) (by omega)
    _ ≤ 3 * raw.toNat * raw.toNat := hsq
    _ ≤ 3 * 65535 * 65535 := by gcongr
  exact absurd hbig (by decide)

/-- 32 bits hold the whole corrected power (R94, D19). -/
theorem correctPower_toNat (raw : BitVec 16) : (correctPower raw).toNat = isqrt (3 * raw.toNat * raw.toNat) :=
  Nat.mod_eq_of_lt (Nat.lt_of_le_of_lt (isqrt_three_mul_sq_le raw) (by decide))

end Sys2Proof.Machine

namespace Sys2Proof.Proofs

open Sys2Proof.Machine

/-- Settles O25, by the integer square root of `3 × raw²`. -/
theorem powerCorrectionIsTheExactFloor : Obligations.PowerCorrectionIsTheExactFloor := by
  intro s d r c hc hr hrc
  obtain ⟨hle, hlt⟩ := isqrt_spec (3 * r.pnow.toNat * r.pnow.toNat)
  refine ⟨correctPower r.pnow, onRecord_eq_next hc hr hrc _, ?_⟩
  rw [correctPower_toNat]
  exact ⟨hle, hlt, isqrt_three_mul_sq_le r.pnow⟩

/-- Settles O27, by the closed form of CONVERT. -/
theorem convertWritesEveryFieldOfTheRecord : Obligations.ConvertWritesEveryFieldOfTheRecord :=
  fun _ _ _ _ hc hr hrc => execConvert_eq_next hc hr hrc

/-- Settles O22: each conversion is one write to REC. -/
theorem scaledConversionsDivideOnce : Obligations.ScaledConversionsDivideOnce := by
  intro s d r c hc hr hrc
  have hwrite := onRecord_eq_next hc hr hrc
  exact ⟨hwrite _, hwrite _, hwrite _, hwrite _, hwrite _, hwrite _, hwrite _, hwrite _, hwrite _, hwrite _, hwrite _⟩

/-- Settles O26: both conversions are one write to REC. -/
theorem monthFieldsAreCopied : Obligations.MonthFieldsAreCopied := by
  intro s d r c hc hr hrc
  have hwrite := onRecord_eq_next hc hr hrc
  exact ⟨hwrite _, hwrite _⟩

end Sys2Proof.Proofs
end

section
/-! The status interpreter (R210 to R214): the conditions of the STATUS16 rows, the closed lookup, and the Off override on
the corrected power. -/

namespace Sys2Proof.Machine

variable {code : BitVec 16} {power : Power}

/-! ### The conditions of the rows (R83, R211) -/

@[simp] theorem hitsOff_iff : hitsOff code power = true ↔ code = 0x0003 ∧ power = 0 := by
  simp [hitsOff]

@[simp] theorem hitsReady_iff : hitsReady code = true ↔ code = 0x0000 := by
  simp [hitsReady]

@[simp] theorem hitsGenerating_iff : hitsGenerating code power = true ↔ code = 0x0003 ∧ power ≠ 0 := by
  simp [hitsGenerating]

@[simp] theorem hitsNogrid_iff : hitsNogrid code = true ↔ code = 0x1015 := by
  simp [hitsNogrid]

@[simp] theorem hitsUnknown_iff : hitsUnknown code = true ↔ code ≠ 0x0000 ∧ code ≠ 0x0003 ∧ code ≠ 0x1015 := by
  simp [hitsUnknown, and_assoc]

/-- A row writes its label exactly when its condition, read as a proposition, holds. -/
theorem statusRow_eq_next_of_iff {s : State} {d : Delivery} {r : RawFrame} {c : InverterRecord}
    (row : (BitVec 16 → Power → Bool) × Label) {p : Prop} [Decidable p] (hp : row.1 r.status c.pnowW = true ↔ p)
    (hc : s.cur = some d) (hr : s.rf = some r) (hrc : s.rc = some c) :
    statusRow row s = .next { s with rc := some { c with status := if p then row.2 else c.status } } := by
  rw [statusRow_eq_next row hc hr hrc, if_congr hp rfl rfl]

/-! ### The lookup (R210) -/

theorem statmap_ready : statmap 0x0000 = .ready := rfl

theorem statmap_generating : statmap 0x0003 = .generating := rfl

theorem statmap_noGrid : statmap 0x1015 = .noGrid := rfl

theorem statmap_unknown (hready : code ≠ 0x0000) (hgen : code ≠ 0x0003) (hnogrid : code ≠ 0x1015) :
    statmap code = .unknown := by
  rw [statmap, if_neg hready, if_neg hgen, if_neg hnogrid]

/-- Off is no value of the lookup: only the override gives it (R211). -/
theorem statmap_ne_off (code : BitVec 16) : statmap code ≠ .off := by
  unfold statmap
  split_ifs <;> decide

/-- STATUS is the two bytes at 79 and 80, the byte at 79 the higher (R71). -/
theorem frameOf_status (b : List Byte) : (frameOf b).status = byteAt b 79 ++ byteAt b 80 := memRead16_eq b 79

/-! ### The override (R211, R212) -/

theorem statusLabel_eq_ite (code : BitVec 16) (power : Power) :
    statusLabel code power = if code = 0x0003 ∧ power = 0 then .off else statmap code :=
  if_congr hitsOff_iff rfl rfl

theorem statusLabel_eq_off_iff : statusLabel code power = .off ↔ code = 0x0003 ∧ power = 0 := by
  rw [statusLabel_eq_ite]
  by_cases hoff : code = 0x0003 ∧ power = 0
  · exact iff_of_true (if_pos hoff) hoff
  · rw [if_neg hoff]
    exact iff_of_false (statmap_ne_off code) hoff

/-- An Unknown code has no override, so its label does not depend on the power. -/
theorem statusLabel_of_statmap_unknown (h : statmap code = .unknown) (power : Power) :
    statusLabel code power = .unknown := by
  have hgen : code ≠ 0x0003 := by
    rintro rfl
    cases h
  rw [statusLabel_eq_ite, if_neg fun hoff => hgen hoff.1, h]

/-! ### The corrected power at 0 and 1 (R214) -/

theorem isqrt_eq_zero_iff (n : Nat) : isqrt n = 0 ↔ n = 0 := by
  obtain ⟨hle, hlt⟩ := isqrt_spec n
  constructor
  · intro h
    rw [h] at hlt
    omega
  · rintro rfl
    rfl

theorem correctPower_eq_zero_iff (raw : BitVec 16) : correctPower raw = 0 ↔ raw = 0 := by
  calc correctPower raw = 0 ↔ (correctPower raw).toNat = 0 := BitVec.toNat_inj.symm
    _ ↔ 3 * raw.toNat * raw.toNat = 0 := by rw [correctPower_toNat, isqrt_eq_zero_iff]
    _ ↔ raw.toNat = 0 := by simp
    _ ↔ raw = 0 := BitVec.toNat_inj (y := 0)

theorem correctPower_one : correctPower 1 = 1 := by decide

/-! ### The label in the record (R213) -/

/-- A raw frame's status code reaches the record through the label only. -/
theorem recordOf_congr_label {r : RawFrame} {code code' : BitVec 16}
    (h : statusLabel code (correctPower r.pnow) = statusLabel code' (correctPower r.pnow)) :
    recordOf { r with status := code } = recordOf { r with status := code' } :=
  congrArg (fun label => { recordOf r with status := label }) h

end Sys2Proof.Machine

namespace Sys2Proof.Proofs

open Sys2Proof.Machine

/-- Settles O29: STATUS by its closed form, and the corner case by that of CONVERT, where code 0x0003 meets the corrected
power of raw 0 and of raw 1. -/
theorem statusOverrideTakesPrecedenceOverTheLookup : Obligations.StatusOverrideTakesPrecedenceOverTheLookup := by
  intro s d r c hc hr hrc
  have hconvert : exec .convert s = .next { s with rc := some (recordOf r) } := execConvert_eq_next hc hr hrc
  refine ⟨?_, fun hcode hpnow => ⟨recordOf r, hconvert, ?_⟩, fun hcode hpnow => ⟨recordOf r, hconvert, ?_⟩⟩
  · rw [← statusLabel_eq_ite]
    exact execStatus_eq_next hc hr hrc
  · have hpower : correctPower r.pnow = 0 := (correctPower_eq_zero_iff _).mpr hpnow
    exact ⟨hpower, statusLabel_eq_off_iff.mpr ⟨hcode, hpower⟩⟩
  · have hpower : correctPower r.pnow = 1 := by rw [hpnow, correctPower_one]
    refine ⟨hpower, ?_⟩
    calc statusLabel r.status (correctPower r.pnow) = statusLabel 0x0003 1 := by rw [hcode, hpower]
      _ = .generating := rfl

/-- Settles O30, by the four cases of the lookup; the byte-order remark is the code read high byte first. -/
theorem statmapIsTheClosedLookup : Obligations.StatmapIsTheClosedLookup := by
  refine ⟨fun code => ⟨?_, ?_, ?_, ?_⟩, fun b h₇₉ h₈₀ => ?_, fun b h₇₉ h₈₀ => ?_⟩
  · rintro rfl
    exact ⟨statmap_ready, rfl⟩
  · rintro rfl
    exact ⟨statmap_generating, rfl⟩
  · rintro rfl
    exact ⟨statmap_noGrid, rfl⟩
  · intro hready hgen hnogrid
    rw [statmap_unknown hready hgen hnogrid]
    exact ⟨rfl, rfl⟩
  · rw [frameOf_status, h₇₉, h₈₀]
    exact statmap_noGrid
  · rw [frameOf_status, h₇₉, h₈₀]
    exact statmap_unknown (by decide) (by decide) (by decide)

/-- Settles O32: the label is Off only by the override, whose corrected power is zero at raw power 0 alone. -/
theorem offExactlyAtZeroRawPower : Obligations.OffExactlyAtZeroRawPower := by
  refine ⟨correctPower_eq_zero_iff, fun r => ?_⟩
  calc (recordOf r).status = .off ↔ r.status = 0x0003 ∧ correctPower r.pnow = 0 := statusLabel_eq_off_iff
    _ ↔ r.status = 0x0003 ∧ r.pnow = 0 := by rw [correctPower_eq_zero_iff]

/-- Settles O41: of the code only the label is recorded, and Unknown codes have one label at any power. -/
theorem recordCannotTellUnknownCodesApart : Obligations.RecordCannotTellUnknownCodesApart := by
  refine ⟨fun r code h => recordOf_congr_label h, fun r code code' h h' => recordOf_congr_label ?_⟩
  rw [statusLabel_of_statmap_unknown h, statusLabel_of_statmap_unknown h']

/-- Settles O28: each operation is that of its row, with the row's condition read as a proposition. -/
theorem statusRowsWriteTheirLabelWhenTheyHit : Obligations.StatusRowsWriteTheirLabelWhenTheyHit := by
  intro s d r c hc hr hrc
  have hrow (row : (BitVec 16 → Power → Bool) × Label) {p : Prop} [Decidable p]
      (hp : row.1 r.status c.pnowW = true ↔ p) := statusRow_eq_next_of_iff row hp hc hr hrc
  refine ⟨?_, ?_, ?_, ?_, ?_⟩
  · exact hrow (hitsOff, .off) hitsOff_iff
  · exact hrow (fun code _ => hitsReady code, .ready) hitsReady_iff
  · exact hrow (hitsGenerating, .generating) hitsGenerating_iff
  · exact hrow (fun code _ => hitsNogrid code, .noGrid) hitsNogrid_iff
  · exact hrow (fun code _ => hitsUnknown code, .unknown) hitsUnknown_iff

end Sys2Proof.Proofs
end

section
/-! The states between two PROCESS steps (R230): the four things an operation can do to one, and that each keeps the
invariant (R27, R237). -/

namespace Sys2Proof.Machine

variable {s t : State} {d : Delivery} {i : Instr}

/-! ### PENDING as a set of deliveries -/

theorem Memory.mem_remove {m : Memory} {tag : Nat} : d ∈ Memory.remove m tag ↔ d ∈ m ∧ d.tag ≠ tag := by
  simp [Memory.remove]

theorem Memory.tag_mem_tags {m : Memory} (hd : d ∈ m) : d.tag ∈ Memory.tags m := List.mem_map_of_mem hd

/-- A canonical PENDING is the entry that is removed, and what is left. -/
theorem Memory.perm_cons_remove {m : Memory} (h : Memory.wf m) (hd : d ∈ m) :
    (d :: Memory.remove m d.tag).Perm m := by
  have htag : ∀ x ∈ m, (x.tag != d.tag) = (x != d) := by
    intro x hx
    have hinj : x.tag = d.tag → x = d := List.inj_on_of_nodup_map (Memory.tags_nodup h) hx hd
    rw [Bool.eq_iff_iff, bne_iff_ne, bne_iff_ne]
    exact not_congr ⟨hinj, congrArg Delivery.tag⟩
  have herase : Memory.remove m d.tag = m.erase d := by
    rw [Memory.remove, List.filter_congr htag, (List.Nodup.of_map _ (Memory.tags_nodup h)).erase_eq_filter]
  rw [herase]
  exact (List.perm_cons_erase hd).symm

/-! ### The closed forms of the four steps -/

/-- The block after RESET (R233). -/
def State.cleared (s : State) : State :=
  { s with pending := [], nextTag := 0, out := [], cur := none, rf := none, rc := none }

/-- The block after DELIVER (R231). -/
def State.delivered (s : State) (bytes : List Byte) : State :=
  { s with pending := Memory.insert s.pending ⟨s.nextTag, bytes⟩, nextTag := s.nextTag + 1 }

/-- The block after PROCESS (R232). -/
def State.processed (s : State) (d : Delivery) : State :=
  { s with pending := Memory.remove s.pending d.tag, out := s.out ++ [resultEvent s.config d] }

@[simp] theorem State.processed_config (s : State) (d : Delivery) : (s.processed d).config = s.config := rfl
@[simp] theorem State.processed_pending (s : State) (d : Delivery) :
    (s.processed d).pending = Memory.remove s.pending d.tag := rfl
@[simp] theorem State.processed_nextTag (s : State) (d : Delivery) : (s.processed d).nextTag = s.nextTag := rfl
@[simp] theorem State.processed_out (s : State) (d : Delivery) :
    (s.processed d).out = s.out ++ [resultEvent s.config d] := rfl
@[simp] theorem State.processed_program (s : State) (d : Delivery) : (s.processed d).program = s.program := rfl
@[simp] theorem State.processed_choice (s : State) (d : Delivery) : (s.processed d).choice = s.choice := rfl

/-- Between steps there are no transient records to discard, so PROCESS leaves only PENDING and OUT changed. -/
theorem exec_process_eq_next {tag : Nat} {bytes : List Byte} (hq : s.Quiet) (hw : s.config.wireLen = 103)
    (hb : Memory.bytes? s.pending tag = some bytes) :
    exec (.process tag) s = .next (s.processed ⟨tag, bytes⟩) := by
  obtain ⟨hc, hrf, hrc⟩ := hq
  have hdiscard : ((s.take tag bytes).emit (resultEvent s.config ⟨tag, bytes⟩)).discard =
      { s.processed ⟨tag, bytes⟩ with cur := none, rf := none, rc := none } := rfl
  calc exec (.process tag) s = .next ((s.take tag bytes).emit (resultEvent s.config ⟨tag, bytes⟩)).discard :=
        execProcess_eq_next hc hw hb
    _ = .next (s.processed ⟨tag, bytes⟩) := by rw [hdiscard, ← hc, ← hrf, ← hrc]; rfl

theorem exec_process_of_mem (hs : s.Inv) (hd : d ∈ s.pending) :
    exec (.process d.tag) s = .next (s.processed d) := by
  obtain ⟨hw, hq, hwf, -⟩ := hs
  exact exec_process_eq_next hq hw ((Memory.bytes?_eq_some_iff hwf _ _).mpr hd)

/-! ### What an operation can do between steps -/

theorem execAccept_of_cur_none (hc : s.cur = none) : execAccept s = .refused .noDelivery := by
  simp [execAccept, hc]

theorem execLenchk_of_cur_none (hc : s.cur = none) : execLenchk s = .refused .noDelivery := by
  simp [execLenchk, hc]

theorem onFrame_of_cur_none (hc : s.cur = none) (f : List Byte → RawFrame → RawFrame) :
    onFrame s f = .refused .noDelivery := by
  simp [onFrame, hc]

theorem onRecord_of_cur_none (hc : s.cur = none) (f : RawFrame → InverterRecord → InverterRecord) :
    onRecord s f = .refused .noDelivery := by
  simp [onRecord, hc]

/-- With no entry in hand only the steps of R230 can complete, and the SKIPs, which do nothing (log entry 3). -/
theorem isStep_or_eq_of_cur_none (hc : s.cur = none) (h : exec i s = .next t) : IsStep i ∨ t = s := by
  cases i with
  | hostNone => exact .inl (.inl rfl)
  | deliver bytes => exact .inl (.inr (.inl ⟨bytes, rfl⟩))
  | reset => exact .inl (.inr (.inr (.inl rfl)))
  | process tag => exact .inl (.inr (.inr (.inr ⟨tag, rfl⟩)))
  | reservedHostop3 => cases h
  | skipRsv0 | skipRsv1 | skipRsv2 | skipRsv3 | skipRsv4 | skipRsv5 | skipRsv6 | skipRsv7 | skipRsv8 =>
    cases h
    exact .inr rfl
  | accept => cases (execAccept_of_cur_none hc).symm.trans h
  | lenchk => cases (execLenchk_of_cur_none hc).symm.trans h
  | decode => cases (runStages_cons_of_refused _ (execAccept_of_cur_none hc)).symm.trans h
  | convert => cases (runStages_cons_of_refused _ (onRecord_of_cur_none hc _)).symm.trans h
  | convTemp | convVdc1 | convVdc2 | convAdc1 | convAdc2 | convAac | convVac | convFac | convYday | convToday
  | convTotal | convPnow | convMonth | convLastMonth
  | statusOff | statusReady | statusGenerating | statusNogrid | statusUnknown | status =>
    cases (onRecord_of_cur_none hc _).symm.trans h
  | _ =>
    dsimp only [exec] at h
    cases (onFrame_of_cur_none hc _).symm.trans h

/-- All that an operation can do from a state between steps when it answers a next state. -/
theorem exec_cases_of_inv (hs : s.Inv) (h : exec i s = .next t) :
    (i = .reset ∧ t = s.cleared) ∨
    (∃ bytes, bytes.length ≤ Config.rxMax ∧ t = s.delivered bytes) ∨
    (∃ d ∈ s.pending, i = .process d.tag ∧ t = s.processed d) ∨
    t = s := by
  obtain ⟨-, ⟨hc, -⟩, hwf, -⟩ := id hs
  obtain (rfl | ⟨bytes, rfl⟩ | rfl | ⟨tag, rfl⟩) | heq := isStep_or_eq_of_cur_none hc h
  · cases h
    exact .inr (.inr (.inr rfl))
  · exact .inr (.inl ⟨bytes, execDeliver_cases h⟩)
  · cases h
    exact .inl ⟨rfl, rfl⟩
  · obtain ⟨bytes, -, hb, -⟩ := execProcess_cases h
    have hd : (⟨tag, bytes⟩ : Delivery) ∈ s.pending := (Memory.bytes?_eq_some_iff hwf _ _).mp hb
    cases (exec_process_of_mem hs hd).symm.trans h
    exact .inr (.inr (.inl ⟨_, hd, rfl, rfl⟩))
  · exact .inr (.inr (.inr heq))

/-- No operation changes what is still to be presented or the choice counter (log entries 5 and 7). -/
theorem exec_program_choice (h : exec i s = .next t) : t.program = s.program ∧ t.choice = s.choice := by
  obtain ⟨-, rfl⟩ | ⟨_, -, -, rfl⟩ | ⟨_, _, -, -, -, he⟩ | he := exec_cases h
  · exact ⟨rfl, rfl⟩
  · exact ⟨rfl, rfl⟩
  · exact ⟨he.program, he.choice⟩
  · exact ⟨he.program, he.choice⟩

/-! ### The invariant -/

theorem resultEvent_tag (c : Config) (d : Delivery) : (resultEvent c d).tag = d.tag := by
  unfold resultEvent
  split_ifs <;> rfl

/-- Tags are given out below NEXT_TAG (R26). -/
theorem tag_lt_nextTag (h : s.Accounted) (hd : d ∈ s.pending) : d.tag < s.nextTag :=
  List.mem_range.mp (h.subset (List.mem_append_right _ (Memory.tag_mem_tags hd)))

theorem inv_cleared (hw : s.config.wireLen = 103) : s.cleared.Inv :=
  ⟨hw, ⟨rfl, rfl, rfl⟩, Memory.wf_nil, fun _ hx => absurd hx List.not_mem_nil, .refl _⟩

/-- The new tag, which is the old NEXT_TAG, is accounted for by the new entry. -/
theorem inv_delivered {bytes : List Byte} (hs : s.Inv) (hl : bytes.length ≤ Config.rxMax) :
    (s.delivered bytes).Inv := by
  obtain ⟨hw, hq, hwf, hbd, hacc⟩ := hs
  refine ⟨hw, hq, Memory.wf_insert hwf fun x hx => tag_lt_nextTag hacc hx, Memory.bounded_insert hbd hl, ?_⟩
  show (eventTags s.out ++ Memory.tags (Memory.insert s.pending ⟨s.nextTag, bytes⟩)).Perm
    (List.range (s.nextTag + 1))
  rw [Memory.tags_insert, ← List.append_assoc, List.range_succ]
  exact hacc.append_right _

/-- The tag that leaves PENDING is the tag that comes into OUT. -/
theorem inv_processed (hs : s.Inv) (hd : d ∈ s.pending) : (s.processed d).Inv := by
  obtain ⟨hw, hq, hwf, hbd, hacc⟩ := hs
  refine ⟨hw, hq, Memory.wf_remove hwf _, Memory.bounded_remove hbd _, ?_⟩
  have hmoved : eventTags (s.processed d).out ++ Memory.tags (s.processed d).pending =
      eventTags s.out ++ Memory.tags (d :: Memory.remove s.pending d.tag) := by
    simp [eventTags, Memory.tags, resultEvent_tag]
  show (eventTags (s.processed d).out ++ Memory.tags (s.processed d).pending).Perm (List.range s.nextTag)
  rw [hmoved]
  exact (((Memory.perm_cons_remove hwf hd).map _).append_left _).trans hacc

theorem exec_keeps_inv (hs : s.Inv) (h : exec i s = .next t) : t.Inv := by
  obtain ⟨hw, -⟩ := id hs
  obtain ⟨-, rfl⟩ | ⟨bytes, hl, rfl⟩ | ⟨d, hd, -, rfl⟩ | rfl := exec_cases_of_inv hs h
  · exact inv_cleared hw
  · exact inv_delivered hs hl
  · exact inv_processed hs hd
  · exact hs

end Sys2Proof.Machine

namespace Sys2Proof.Proofs

open Sys2Proof.Machine

/-- Settles O49: a step is an operation on the state with other values of the model's own fields, of which the invariant
says nothing. -/
theorem stepKeepsTheInvariant : Obligations.StepKeepsTheInvariant := by
  intro s t hs h
  obtain ⟨i, program, choice, hexec⟩ := step_cases h
  have hs' : State.Inv { s with program := program, choice := choice } := hs
  exact exec_keeps_inv hs' hexec

/-- Settles O8: at reset nothing has been given out. -/
theorem resetStateSatisfiesTheInvariant : Obligations.ResetStateSatisfiesTheInvariant :=
  inv_cleared (s := State.reset) rfl

end Sys2Proof.Proofs
end

section
/-! The transactions one by one (R231, R232, R236): DELIVER, the reserved code, and the one event of a PROCESS. -/

namespace Sys2Proof.Machine

variable {s : State} {d : Delivery} {c : Config} {tag : Nat} {bytes : List Byte}

/-! ### The event of a delivery (R235, R255) -/

theorem resultEvent_of_length_ne (hw : c.wireLen = 103) (hl : bytes.length ≠ 103) :
    resultEvent c ⟨tag, bytes⟩ = .error tag (.wireLengthMismatch bytes.length bytes) := by
  simp [resultEvent, wireLenOk, hw, hl]

theorem resultEvent_of_len_ne (hw : c.wireLen = 103) (hl : bytes.length = 103)
    (hlen : byteAt bytes 1 ≠ c.payloadLen) :
    resultEvent c ⟨tag, bytes⟩ = .error tag (.invalidPacketLength (byteAt bytes 1)) := by
  simp [resultEvent, wireLenOk, payloadLenOk, frameOf, memRead8_eq, hw, hl, hlen]

theorem resultEvent_of_len_eq (hw : c.wireLen = 103) (hl : bytes.length = 103)
    (hlen : byteAt bytes 1 = c.payloadLen) :
    resultEvent c ⟨tag, bytes⟩ = .record tag (recordOf (frameOf bytes)) := by
  simp [resultEvent, wireLenOk, payloadLenOk, frameOf, memRead8_eq, hw, hl, hlen]

/-- The tag of a delivery is copied into its event and has no other part in it. -/
theorem resultEvent_record_or_error (hw : c.wireLen = 103) (bytes : List Byte) :
    (∃ rc, ∀ tag, resultEvent c ⟨tag, bytes⟩ = .record tag rc) ∨
      ∃ info, ∀ tag, resultEvent c ⟨tag, bytes⟩ = .error tag info := by
  by_cases hl : bytes.length = 103
  · by_cases hlen : byteAt bytes 1 = c.payloadLen
    · exact .inl ⟨_, fun _ => resultEvent_of_len_eq hw hl hlen⟩
    · exact .inr ⟨_, fun _ => resultEvent_of_len_ne hw hl hlen⟩
  · exact .inr ⟨_, fun _ => resultEvent_of_length_ne hw hl⟩

theorem config_ext {c c' : Config} (hw : c.wireLen = c'.wireLen) (hp : c.payloadLen = c'.payloadLen) : c = c' := by
  obtain ⟨w, p⟩ := c
  obtain ⟨w', p'⟩ := c'
  obtain rfl : w = w' := hw
  obtain rfl : p = p' := hp
  rfl

/-! ### PENDING and the tags given out -/

theorem mem_pending_of_bytes? (hs : s.Inv) (hb : Memory.bytes? s.pending tag = some bytes) :
    (⟨tag, bytes⟩ : Delivery) ∈ s.pending := by
  obtain ⟨-, -, hwf, -⟩ := hs
  exact (Memory.bytes?_eq_some_iff hwf _ _).mp hb

/-- NEXT_TAG is not the tag of an entry (R26). -/
theorem bytes?_nextTag (hs : s.Inv) : Memory.bytes? s.pending s.nextTag = none := by
  obtain ⟨-, -, -, -, hacc⟩ := id hs
  refine Option.eq_none_iff_forall_ne_some.mpr fun bytes hb => ?_
  exact Nat.lt_irrefl _ (tag_lt_nextTag hacc (mem_pending_of_bytes? hs hb))

theorem bytes?_processed (s : State) (d : Delivery) : Memory.bytes? (s.processed d).pending d.tag = none := by
  rw [State.processed_pending, Memory.bytes?_remove, if_pos rfl]

theorem exec_process_of_bytes? (hs : s.Inv) (hb : Memory.bytes? s.pending tag = some bytes) :
    exec (.process tag) s = .next (s.processed ⟨tag, bytes⟩) :=
  exec_process_of_mem hs (mem_pending_of_bytes? hs hb)

end Sys2Proof.Machine

namespace Sys2Proof.Proofs

open Sys2Proof.Machine

/-- Settles O10: the new tag is that of no entry, so the lookup after the insertion finds the delivered bytes there. -/
theorem deliverAddsTheDeliveryUnderANewTag : Obligations.DeliverAddsTheDeliveryUnderANewTag := by
  refine ⟨fun bytes s hl => execDeliver_eq_next hl s, fun bytes s hl => execDeliver_over_rxMax hl s, ?_⟩
  intro bytes s t hs h u
  obtain ⟨-, rfl⟩ := execDeliver_cases h
  rw [Memory.bytes?_insert]
  by_cases hu : u = s.nextTag
  · subst hu
    simp [bytes?_nextTag hs]
  · simp [hu, Ne.symm hu]

/-- Settles O34, by the closed form of PROCESS. -/
theorem processEmitsTheResultOfTheDelivery : Obligations.ProcessEmitsTheResultOfTheDelivery :=
  fun _ _ _ hc hrf hrc hw hb => exec_process_eq_next ⟨hc, hrf, hrc⟩ hw hb

/-- Settles O36: the one event is the closed-form result, and its three cases are those of R255. -/
theorem oneErrorInStageOrderAndNoRetry : Obligations.OneErrorInStageOrderAndNoRetry := by
  intro s t bytes hs hb
  obtain ⟨hw, -⟩ := id hs
  refine ⟨_, _, exec_process_of_bytes? hs hb, rfl, bytes?_processed s ⟨t, bytes⟩, fun hl => ?_, fun hl hlen => ?_,
    fun hl hlen => ?_⟩
  · exact resultEvent_of_length_ne hw hl
  · exact resultEvent_of_len_ne hw hl hlen
  · exact ⟨_, resultEvent_of_len_eq hw hl hlen⟩

/-- Settles O38: the invariant fixes WIRE_LEN, so the two states have one CONFIG, and the event is a function of it, the
bytes and the tag that it copies. -/
theorem resultIsAFunctionOfTheBytesAlone : Obligations.ResultIsAFunctionOfTheBytesAlone := by
  intro s s' t t' bytes hs hs' hpayload hb hb'
  obtain ⟨hw, -⟩ := id hs
  obtain ⟨hw', -⟩ := id hs'
  have hconfig : s'.config = s.config := config_ext (hw'.trans hw.symm) hpayload.symm
  refine ⟨_, _, exec_process_of_bytes? hs hb, exec_process_of_bytes? hs' hb', ?_⟩
  simp only [State.processed_out, hconfig]
  obtain ⟨rc, hevent⟩ | ⟨info, hevent⟩ := resultEvent_record_or_error hw bytes
  · exact .inl ⟨rc, by rw [hevent], by rw [hevent]⟩
  · exact .inr ⟨info, by rw [hevent], by rw [hevent]⟩

/-- Settles O12: the operation answers the same refusal in every state. -/
theorem reservedHostCodeIsRefused : Obligations.ReservedHostCodeIsRefused := fun _ => rfl

/-- Settles O35, by the two tests of PROCESS before it takes the entry. -/
theorem processIsEnabledOnlyOnAPendingTag : Obligations.ProcessIsEnabledOnlyOnAPendingTag := by
  constructor
  · intro s t hc hb
    simp [exec, execProcess, hc, hb]
  · intro s t d hc
    simp [exec, execProcess, hc]

end Sys2Proof.Proofs
end

section
/-! Two PROCESS steps in either order (R234), the step function against the step relation (R230), the idle run (R239). -/

namespace Sys2Proof.Machine

variable {s t : State} {d : Delivery} {i : Instr}

theorem Memory.remove_comm (m : Memory) (a b : Nat) :
    Memory.remove (Memory.remove m a) b = Memory.remove (Memory.remove m b) a := List.filter_comm ..

/-- Taking one entry leaves another for the next PROCESS. -/
theorem exec_process_processed {d' : Delivery} (hs : s.Inv) (hd : d ∈ s.pending) (hd' : d' ∈ s.pending)
    (hne : d'.tag ≠ d.tag) : exec (.process d'.tag) (s.processed d) = .next ((s.processed d).processed d') :=
  exec_process_of_mem (inv_processed hs hd) (Memory.mem_remove.mpr ⟨hd', hne⟩)

/-- A step of the relation has a code of its own. -/
theorem decode_encode_of_isStep (hi : IsStep i) : decode (encode i) = .ok i := by
  obtain rfl | ⟨bytes, rfl⟩ | rfl | ⟨tag, rfl⟩ := hi
  · exact Laws.RoundTrip.hostNone rfl
  · rfl
  · exact Laws.RoundTrip.reset rfl
  · exact Laws.RoundTrip.process tag rfl

/-! ### The idle run -/

/-- Whatever number the free choice gives, it picks an entry (log entry 6). -/
theorem freeEntry_mem (h : s.pending ≠ []) : ∃ d ∈ s.pending, freeEntry s = some d := by
  have hlt : Config.freePick s.choice % s.pending.length < s.pending.length :=
    Nat.mod_lt _ (List.length_pos_of_ne_nil h)
  exact ⟨_, List.getElem_mem hlt, List.getElem?_eq_getElem hlt⟩

theorem step_idle_of_pending (hprog : s.program = []) (h : s.pending ≠ []) :
    ∃ d ∈ s.pending, step s = exec (.process d.tag) { s with choice := s.choice + 1 } := by
  obtain ⟨d, hd, hfree⟩ := freeEntry_mem h
  obtain ⟨x, xs, hx⟩ := List.exists_cons_of_ne_nil h
  refine ⟨d, hd, ?_⟩
  simp only [step, hprog, idleStep, hx, hfree]

theorem step_idle_processes (hs : s.Inv) (hprog : s.program = []) (h : s.pending ≠ []) :
    ∃ d ∈ s.pending, step s = .next (State.processed { s with choice := s.choice + 1 } d) := by
  obtain ⟨d, hd, hstep⟩ := step_idle_of_pending hprog h
  exact ⟨d, hd, hstep.trans (exec_process_of_mem (s := { s with choice := s.choice + 1 }) hs hd)⟩

/-- A run whose first step completes goes on from there, for any machine. -/
theorem run_succ_of_step {M : Host.Core} {s t : M.State} (h : M.step s = .next t) (n : Nat) :
    M.run (n + 1) s = M.run n t := by
  simp only [Host.Core.run, h]

end Sys2Proof.Machine

namespace Sys2Proof.Proofs

open Sys2Proof.Machine

/-- Settles O51: each PROCESS leaves the other entry pending and CONFIG as it is, and the removals commute. -/
theorem processOrderOnlyPermutesTheEvents : Obligations.ProcessOrderOnlyPermutesTheEvents := by
  intro s t u b b' hs hne hb hb'
  have hd := mem_pending_of_bytes? hs hb
  have hd' := mem_pending_of_bytes? hs hb'
  refine ⟨_, _, { s with pending := Memory.remove (Memory.remove s.pending t) u },
    resultEvent s.config ⟨t, b⟩, resultEvent s.config ⟨u, b'⟩,
    exec_process_of_mem hs hd, (exec_process_processed hs hd hd' hne.symm).trans ?_,
    exec_process_of_mem hs hd', (exec_process_processed hs hd' hd hne).trans ?_,
    resultEvent_tag _ _, resultEvent_tag _ _⟩
  · simp [State.processed]
  · simp [State.processed, Memory.remove_comm s.pending u t]

/-- Settles O52: what completes between steps is a step of the relation or changes nothing, which is NONE; and an
operation of the relation that is presented is decoded and run. -/
theorem stepIsTheStepRelation : Obligations.StepIsTheStepRelation := by
  constructor
  · intro s t hs h
    obtain ⟨-, ⟨hc, -⟩, -⟩ := hs
    obtain ⟨i, program, choice, hexec⟩ := step_cases h
    obtain ⟨rfl, rfl⟩ := exec_program_choice hexec
    obtain hi | heq := isStep_or_eq_of_cur_none (s := { s with program := t.program, choice := t.choice }) hc hexec
    · exact ⟨i, hi, hexec⟩
    · exact ⟨.hostNone, .inl rfl, congrArg Host.Outcome.next heq.symm⟩
  · intro i s t hi h
    exact (step_of_decode_ok rfl (decode_encode_of_isStep hi)).trans h

/-- Settles O50, by induction on the number of pending entries: an idle step appends the result of one of them, and the
rest of the run appends those of the others. -/
theorem idleRunProcessesEveryPendingDelivery : Obligations.IdleRunProcessesEveryPendingDelivery := by
  intro s hs hprog
  induction hn : s.pending.length generalizing s with
  | zero =>
    have hnil : s.pending = [] := List.length_eq_zero_iff.mp hn
    exact ⟨s, [], rfl, ⟨hprog, hnil⟩, (List.append_nil _).symm, by simp [hnil], rfl, rfl⟩
  | succ n ih =>
    have hne : s.pending ≠ [] := List.ne_nil_of_length_eq_add_one hn
    obtain ⟨d, hd, hstep⟩ := step_idle_processes hs hprog hne
    have hinv : (State.processed { s with choice := s.choice + 1 } d).Inv :=
      inv_processed (s := { s with choice := s.choice + 1 }) hs hd
    have hperm : (d :: Memory.remove s.pending d.tag).Perm s.pending := by
      obtain ⟨-, -, hwf, -⟩ := hs
      exact Memory.perm_cons_remove hwf hd
    have hlen : (Memory.remove s.pending d.tag).length = n := Nat.succ.inj (hperm.length_eq.trans hn)
    obtain ⟨t, evs, hrun, hdone, hout, hevs, hconfig, hnext⟩ := ih _ hinv hprog hlen
    refine ⟨t, resultEvent s.config d :: evs, ?_, hdone, ?_, ?_, hconfig, hnext⟩
    · exact (run_succ_of_step (M := core) hstep n).trans hrun
    · rw [hout, State.processed_out, List.append_assoc, List.singleton_append]
    · exact (hevs.cons _).trans (hperm.map _)

end Sys2Proof.Proofs
end

section
/-! Unending runs (R238): what takes an entry out of PENDING, and a fair way to go on from any state between steps. -/

namespace Sys2Proof.Machine

variable {s t : State} {d : Delivery} {r : Nat → State}

/-! ### The steps of a run -/

theorem inv_of_stepsTo (hs : s.Inv) (h : s.StepsTo t) : t.Inv := by
  obtain ⟨i, -, htakes⟩ := h
  exact exec_keeps_inv (s := { s with program := t.program, choice := t.choice }) hs htakes

theorem config_of_stepsTo (h : s.StepsTo t) : t.config = s.config := by
  obtain ⟨i, -, htakes⟩ := h
  exact exec_config (s := { s with program := t.program, choice := t.choice }) htakes

theorem inv_of_isRun (hr : IsRun r) (n : Nat) : (r n).Inv := by
  obtain ⟨h₀, hsteps⟩ := hr
  induction n with
  | zero => exact h₀
  | succ n ih => exact inv_of_stepsTo ih (hsteps n)

theorem config_of_isRun (hr : IsRun r) (n : Nat) : (r n).config = (r 0).config := by
  obtain ⟨-, hsteps⟩ := hr
  induction n with
  | zero => rfl
  | succ n ih => exact (config_of_stepsTo (hsteps n)).trans ih

/-- An entry leaves PENDING by RESET, or by the PROCESS of its tag, which appends its result (R232, R233). -/
theorem takes_of_mem_of_notMem (hs : s.Inv) (h : s.StepsTo t) (hd : d ∈ s.pending) (hd' : d ∉ t.pending) :
    s.Takes .reset t ∨
      (s.Takes (.process d.tag) t ∧ t.out = s.out ++ [resultEvent s.config d]) := by
  obtain ⟨i, -, htakes⟩ := h
  have hs' : State.Inv { s with program := t.program, choice := t.choice } := hs
  obtain ⟨rfl, -⟩ | ⟨bytes, -, ht⟩ | ⟨x, hx, rfl, ht⟩ | ht := exec_cases_of_inv hs' htakes
  · exact .inl htakes
  · rw [ht] at hd'
    exact absurd (List.mem_append_left _ hd) hd'
  · by_cases htag : d.tag = x.tag
    · obtain ⟨-, -, hwf, -⟩ := hs
      obtain rfl : d = x := List.inj_on_of_nodup_map (Memory.tags_nodup hwf) hd hx htag
      exact .inr ⟨htakes, by rw [ht]; rfl⟩
    · rw [ht] at hd'
      exact absurd (Memory.mem_remove.mpr ⟨hd, htag⟩) hd'
  · rw [ht] at hd'
    exact absurd hd hd'

/-- What holds at one moment and not at a later one ceases to hold at some moment between. -/
theorem exists_last_moment {p : Nat → Prop} {n m : Nat} (hnm : n ≤ m) (hn : p n) (hm : ¬ p m) :
    ∃ k, n ≤ k ∧ p k ∧ ¬ p (k + 1) := by
  by_contra hnone
  push Not at hnone
  exact hm (Nat.le_induction hn hnone m hnm)

/-! ### A fair run from any state -/

/-- The engine processes the first pending entry, if there is one. -/
def State.processFirst (s : State) : State :=
  match s.pending with
  | [] => s
  | d :: _ => s.processed d

theorem processFirst_of_nil (h : s.pending = []) : s.processFirst = s := by
  simp only [State.processFirst, h]

theorem processFirst_of_cons {m : Memory} (h : s.pending = d :: m) : s.processFirst = s.processed d := by
  simp only [State.processFirst, h]

/-- The run in which the host pauses for ever. -/
def pausedRun (s : State) : Nat → State
  | 0 => s
  | n + 1 => (pausedRun s n).processFirst

theorem stepsTo_processFirst (hs : s.Inv) : s.StepsTo s.processFirst := by
  cases h : s.pending with
  | nil =>
    rw [processFirst_of_nil h]
    exact s.stepsTo_self
  | cons d m =>
    rw [processFirst_of_cons h]
    exact ⟨.process d.tag, .inr (.inr (.inr ⟨_, rfl⟩)), exec_process_of_mem hs (h ▸ List.mem_cons_self)⟩

theorem inv_pausedRun (hs : s.Inv) (n : Nat) : (pausedRun s n).Inv := by
  induction n with
  | zero => exact hs
  | succ n ih => exact inv_of_stepsTo ih (stepsTo_processFirst ih)

theorem isRun_pausedRun (hs : s.Inv) : IsRun (pausedRun s) :=
  ⟨hs, fun n => stepsTo_processFirst (inv_pausedRun hs n)⟩

theorem length_processFirst_le (s : State) : s.processFirst.pending.length ≤ s.pending.length - 1 := by
  cases h : s.pending with
  | nil => simp [processFirst_of_nil h, h]
  | cons d m =>
    have hremove : Memory.remove (d :: m) d.tag = Memory.remove m d.tag := by simp [Memory.remove]
    rw [processFirst_of_cons h, State.processed_pending, h, hremove]
    exact List.length_filter_le ..

theorem length_pausedRun_le (s : State) (n : Nat) : (pausedRun s n).pending.length ≤ s.pending.length - n := by
  induction n with
  | zero => exact Nat.le_refl _
  | succ n ih =>
    have hstep := length_processFirst_le (pausedRun s n)
    show (pausedRun s n).processFirst.pending.length ≤ _
    omega

theorem fair_pausedRun (s : State) : Fair (pausedRun s) := by
  intro n tag _
  have hlen := length_pausedRun_le s (n + s.pending.length)
  have hnil : (pausedRun s (n + s.pending.length)).pending = [] := List.length_eq_zero_iff.mp (by omega)
  refine ⟨n + s.pending.length, Nat.le_add_right .., ?_⟩
  rw [hnil]
  exact List.not_mem_nil

end Sys2Proof.Machine

namespace Sys2Proof.Proofs

open Sys2Proof.Machine

/-- Settles O53: by fairness the tag is absent later, so there is a last moment at which the entry is pending, and
the step taken then removes it. -/
theorem admittedRunsFinishEveryDelivery : Obligations.AdmittedRunsFinishEveryDelivery := by
  rintro r ⟨hrun, hfair⟩ n d hd
  obtain ⟨m, hnm, htag⟩ := hfair n d.tag (Memory.tag_mem_tags hd)
  have hgone : d ∉ (r m).pending := fun hm => htag (Memory.tag_mem_tags hm)
  obtain ⟨k, hnk, hk, hk'⟩ := exists_last_moment (p := fun k => d ∈ (r k).pending) hnm hd hgone
  obtain ⟨-, hsteps⟩ := id hrun
  refine ⟨k, hnk, hk, ?_⟩
  rw [← config_of_isRun hrun k]
  exact takes_of_mem_of_notMem (inv_of_isRun hrun k) (hsteps k) hk hk'

/-- Settles O54: while the host pauses, the engine processes one entry after the other. -/
theorem everyRunCanBeContinuedFairly : Obligations.EveryRunCanBeContinuedFairly :=
  fun s hs => ⟨pausedRun s, rfl, isRun_pausedRun hs, fair_pausedRun s⟩

end Sys2Proof.Proofs
end

section
/-! The error paths that do not exist (R253): conversion and status interpretation complete on every RF, and LEN alone
decides about a delivery of 103 bytes. -/

namespace Sys2Proof.Proofs

open Sys2Proof.Machine

/-- Settles O37: by their closed forms CONVERT and STATUS write nothing but REC, and the closed-form result of a 103-byte
delivery whose LEN is PAYLOAD_LEN is a Record. -/
theorem noOtherErrorExists : Obligations.NoOtherErrorExists := by
  constructor
  · intro s d r c hc hr hrc
    exact ⟨⟨_, execConvert_eq_next hc hr hrc, rfl, hc⟩, ⟨_, execStatus_eq_next hc hr hrc, rfl, hc⟩⟩
  · intro s t bytes hs hb hl hlen
    obtain ⟨hw, -⟩ := id hs
    refine ⟨s.processed ⟨t, bytes⟩, recordOf (frameOf bytes), exec_process_of_bytes? hs hb, ?_⟩
    rw [State.processed_out, resultEvent_of_len_eq hw hl hlen]

end Sys2Proof.Proofs
end

section
/-! The operations of the three units where what they work on does not exist (R28, R121, R156, log entry 3). An EXTRACT
is one write to RF and a converter or status operation one write to REC, so each is refused as every such write is. -/

namespace Sys2Proof.Machine

variable {s : State} {d : Delivery} {r : RawFrame} {i : Instr} {reason : Refusal}

/-- The 25 EXTRACTs, in the order of R71. -/
def extractOps : List Instr :=
  [.extractStart, .extractLen, .extractCtrl, .extractId1, .extractId2, .extractCmd, .extractPtype, .extractSerial,
    .extractTemp, .extractVdc1, .extractVdc2, .extractAdc1, .extractAdc2, .extractAac, .extractVac, .extractFac,
    .extractPnow, .extractYday, .extractToday, .extractTotal, .extractStatus, .extractMonth, .extractLastMonth,
    .extractChecksum, .extractEnd]

/-- The fourteen CONVs, in the order of R186. -/
def convOps : List Instr :=
  [.convTemp, .convVdc1, .convVdc2, .convAdc1, .convAdc2, .convAac, .convVac, .convFac, .convYday, .convToday,
    .convTotal, .convPnow, .convMonth, .convLastMonth]

/-- The rows of STATUS16 as operations, and STATUS (R83, R212). -/
def statusOps : List Instr :=
  [.statusOff, .statusReady, .statusGenerating, .statusNogrid, .statusUnknown, .status]

/-- The operations of the unit converter and of the status interpreter. -/
def recordOps : List Instr := convOps ++ .convert :: statusOps

theorem exec_refused_of_onFrame (hi : i ∈ extractOps) (h : ∀ f, onFrame s f = .refused reason) :
    exec i s = .refused reason := by
  fin_cases hi <;> (dsimp only [exec]; exact h _)

/-- CONVERT is refused with its first CONV, and every other operation is one write to REC. -/
theorem exec_refused_of_onRecord (hi : i ∈ recordOps) (h : ∀ f, onRecord s f = .refused reason) :
    exec i s = .refused reason := by
  simp only [recordOps, List.mem_append, List.mem_cons] at hi
  obtain hconv | rfl | hstatus := hi
  · fin_cases hconv <;> exact h _
  · exact runStages_cons_of_refused _ (h _)
  · fin_cases hstatus <;> exact h _

/-! ### Without RF, and without REC -/

theorem onFrame_of_rf_none (hc : s.cur = some d) (hr : s.rf = none) (f : List Byte → RawFrame → RawFrame) :
    onFrame s f = .refused .noFrame := by
  simp [onFrame, hc, hr]

theorem execLenchk_of_rf_none (hc : s.cur = some d) (hr : s.rf = none) : execLenchk s = .refused .noFrame := by
  simp [execLenchk, hc, hr]

theorem onRecord_of_rf_none (hc : s.cur = some d) (hr : s.rf = none)
    (f : RawFrame → InverterRecord → InverterRecord) : onRecord s f = .refused .noFrame := by
  simp [onRecord, hc, hr]

theorem onRecord_of_rc_none (hc : s.cur = some d) (hr : s.rf = some r) (hrc : s.rc = none)
    (f : RawFrame → InverterRecord → InverterRecord) : onRecord s f = .refused .noRecord := by
  simp [onRecord, hc, hr, hrc]

end Sys2Proof.Machine

namespace Sys2Proof.Proofs

open Sys2Proof.Machine

/-- Settles O47: DECODE is refused with ACCEPT, its first stage, and every other operation by its own test for an entry
in hand. -/
theorem stagesRunOnlyInsideAProcessStep : Obligations.StagesRunOnlyInsideAProcessStep := by
  intro s hc i hi
  have haccept := execAccept_of_cur_none hc
  have hi' : i ∈ .accept :: (extractOps ++ .lenchk :: .decode :: recordOps) := hi
  simp only [List.mem_cons, List.mem_append] at hi'
  obtain rfl | hextract | rfl | rfl | hrecord := hi'
  · exact haccept
  · exact exec_refused_of_onFrame hextract (onFrame_of_cur_none hc)
  · exact execLenchk_of_cur_none hc
  · exact runStages_cons_of_refused _ haccept
  · exact exec_refused_of_onRecord hrecord (onRecord_of_cur_none hc)

/-- Settles O48: every one of the operations tests for RF, and those that write REC test for it as well. -/
theorem stagesWaitForTheStageTheyNeed : Obligations.StagesWaitForTheStageTheyNeed := by
  constructor
  · intro s d hc hr i hi
    have hi' : i ∈ extractOps ++ .lenchk :: recordOps := hi
    simp only [List.mem_append, List.mem_cons] at hi'
    obtain hextract | rfl | hrecord := hi'
    · exact exec_refused_of_onFrame hextract (onFrame_of_rf_none hc hr)
    · exact execLenchk_of_rf_none hc hr
    · exact exec_refused_of_onRecord hrecord (onRecord_of_rf_none hc hr)
  · intro s d r hc hr hrc i hi
    exact exec_refused_of_onRecord hi (onRecord_of_rc_none hc hr hrc)

end Sys2Proof.Proofs
end

section
/-! The idle step (R234, R239), ACCEPT and the u16 fields of the frame (R121, R124 to R152), reset, and the codes of the
operations (R83, R87, log entries 11 and 12). -/

namespace Sys2Proof.Machine

variable {s : State}

theorem step_idle_of_nil (hprog : s.program = []) (h : s.pending = []) : step s = .next s := by
  simp only [step, hprog, idleStep, h]
  rfl

end Sys2Proof.Machine

namespace Sys2Proof.Proofs

open Sys2Proof.Machine

/-- Settles O6: whatever number the free choice gives, it picks an entry of a PENDING that has one. -/
theorem idleStepProcessesAFreelyChosenEntry : Obligations.IdleStepProcessesAFreelyChosenEntry := by
  intro s hprog
  constructor
  · exact step_idle_of_nil hprog
  · exact step_idle_of_pending hprog

/-- Settles O15: each operation is that of a FRAME103 row, and MemRead of two bytes is their concatenation. -/
theorem extractTwoByteFields : Obligations.ExtractTwoByteFields := by
  intro s d r hc hr hl
  have hrow {i : Instr} (hi : i ∈ frameRows.map FrameRow.op) := exec_frameRow hi hc hr hl
  simp only [← memRead16_eq]
  exact ⟨hrow (by decide), hrow (by decide), hrow (by decide), hrow (by decide), hrow (by decide), hrow (by decide),
    hrow (by decide), hrow (by decide), hrow (by decide), hrow (by decide), hrow (by decide), hrow (by decide),
    hrow (by decide), hrow (by decide), hrow (by decide), hrow (by decide)⟩

/-- Settles O13, by the two outcomes of ACCEPT. -/
theorem acceptChecksTheByteCount : Obligations.AcceptChecksTheByteCount := by
  intro s d hc
  constructor
  · exact fun hl => execAccept_eq_next hc hl
  · exact fun hl => execAccept_eq_raise hc hl

/-- Settles O7: each field of the state after reset is written out in its definition. -/
theorem resetStateIsAsTheSpecGivesIt : Obligations.ResetStateIsAsTheSpecGivesIt :=
  ⟨rfl, rfl, rfl, rfl, rfl, rfl, rfl, rfl, rfl⟩

/-- Settles O9: RESET reads nothing of the state, so it completes in every one. -/
theorem resetTransactionClearsTheBlock : Obligations.ResetTransactionClearsTheBlock := fun _ => rfl

/-- Settles O3, by evaluating the decoder at each word. -/
theorem tableWordsDecode : Obligations.TableWordsDecode :=
  ⟨rfl, rfl, rfl, rfl, rfl, rfl, rfl, rfl, rfl, rfl, rfl, rfl, rfl, rfl⟩

/-- Settles O4: the code of each operation is closed but for the operand of DELIVER and PROCESS, which the decoder
copies unread, so the decoder evaluates at each. -/
theorem decodeOfEncodeIsTheOperation : Obligations.DecodeOfEncodeIsTheOperation := by
  intro i _
  cases i <;> rfl

end Sys2Proof.Proofs
end
